-- ==== Sys2Proof/Word.lean ====
section
/-! DEFINITION. The plain values every layer names: bytes, byte order, and the opaque values of the outside world
(00_scope.md rules R8, R9; 10_state.md rules R23, R24). -/

namespace Sys2Proof

/-- An 8-bit byte, the unit of addressing of both data spaces (20_memory.md rule R40). -/
abbrev Byte := BitVec 8

/-- The two values of the strap `ORD` (00_scope.md rule R8). -/
inductive ByteOrder
  | little
  | big
deriving DecidableEq, Repr, Inhabited

/-- A socket handle: whatever value the transport answered; the block never computes with it (10_state.md rule R23).
DESIGN CHOICE (log entry 3): the opaque values are told apart by a number. -/
structure Handle where
  id : Nat
deriving DecidableEq, Repr, Inhabited

/-- An address family, an opaque value produced by `ParseAddr` (10_state.md rule R24; log entry 3). -/
structure Family where
  id : Nat
deriving DecidableEq, Repr, Inhabited

/-- A transport error code: "an opaque integer chosen by the transport" (42_forwarder.md rule R136). -/
abbrev Code := Int

/-- What `ParseAddr` answers for a text it accepts: the address family and the binary address (00_scope.md rule R8). -/
structure Resolved where
  family : Family
  addr   : List Byte
deriving DecidableEq, Repr, Inhabited

end Sys2Proof
end

