-- ==== Sys2Proof/Syntax.lean ====
section
/-! DEFINITION. The seven commands of the block (30_encoding.md rule R73), one constructor for each row of the
opcode table, with their operands. -/

namespace Sys2Proof

/-- `SampleFormat` (30_encoding.md rule R60). -/
inductive SampleFormat
  | int16Stereo
  | int32Stereo
deriving DecidableEq, Repr

/-- `ChannelSelector`, used for the output selector and for the monitor selector (30_encoding.md rule R61). -/
inductive Channel
  | left
  | right
deriving DecidableEq, Repr

/-- The commands. A sample is a mathematical integer, as the spec's pseudocode has it (00_scope.md rules R10, R11);
its range is checked in WellFormed. -/
inductive Instr
  /-- CFG: write the converter configuration (40_setup.md rule R90). -/
  | cfg (fmt : SampleFormat) (out mon : Channel)
  /-- DEST: resolve and store the destination (42_forwarder.md rule R131). -/
  | dest (text : List Byte) (port : BitVec 16)
  /-- OPEN: create the socket and put it in non-blocking mode (42_forwarder.md rule R132). -/
  | openSocket
  /-- CONVERT: convert one raw buffer and deliver the mono sequence (41_converter.md rule R108). -/
  | convert (raw : List Byte)
  /-- SEND: transmit one mono sequence as one datagram (42_forwarder.md rule R134). -/
  | send (samples : List Int)
  /-- FRAME: convert one raw buffer and send the result (43_pipeline.md rule R160). -/
  | frame (raw : List Byte)
  /-- CLOSE: release the socket (42_forwarder.md rule R135). -/
  | close
deriving DecidableEq, Repr

end Sys2Proof
end

