-- ==== Sys2Proof/WellFormed.lean ====
section
/-! DEFINITION. Which commands and which packets are well formed. The checks on packets are 30_encoding.md rule R74,
clause by clause, written without the decoder, so that the decoder can be held against them. -/

namespace Sys2Proof

/-- A signed 16-bit integer: `[-32768, 32767]` (00_scope.md rule R11). -/
def sampleInRange (x : Int) : Bool := decide (-32768 ≤ x ∧ x ≤ 32767)

/-- A command's operands are values the encoding admits: only SEND's samples have a range that their type does not
give (42_forwarder.md rule R134). -/
def Instr.wellFormed : Instr → Bool
  | .cfg _ _ _ => true
  | .dest _ _ => true
  | .openSocket => true
  | .convert _ => true
  | .send samples => samples.all sampleInRange
  | .frame _ => true
  | .close => true

/-- `opc`, bits 7:4 of the opcode byte (30_encoding.md rule R67); 0 for a packet with no bytes. -/
def packetOpc (p : List Byte) : Nat := (p.headD 0).toNat / 16

/-- `arg`, bits 3:0 of the opcode byte (30_encoding.md rule R67). -/
def packetArg (p : List Byte) : Nat := (p.headD 0).toNat % 16

/-- Rule R74 (a): the packet is empty. -/
def illegalEmpty (p : List Byte) : Bool := p.length == 0

/-- Rule R74 (b): `opc` is 0 or 8 to 15. -/
def illegalOpcode (p : List Byte) : Bool := packetOpc p == 0 || decide (8 ≤ packetOpc p)

/-- Rule R74 (c): `opc` is 2 to 7 and `arg` is not 0. -/
def illegalArg (p : List Byte) : Bool := decide (2 ≤ packetOpc p ∧ packetOpc p ≤ 7 ∧ packetArg p ≠ 0)

/-- Rule R74 (d): `opc` is 1 and `arg[3]` is 1. -/
def illegalReserved (p : List Byte) : Bool := decide (packetOpc p = 1 ∧ packetArg p / 8 % 2 = 1)

/-- Rule R74 (e): the length condition of the packet's format fails. -/
def illegalLength (p : List Byte) : Bool :=
  decide ((packetOpc p = 1 ∨ packetOpc p = 3 ∨ packetOpc p = 7) ∧ p.length ≠ 1)
    || decide (packetOpc p = 2 ∧ p.length < 3)
    || decide (packetOpc p = 5 ∧ (p.length - 1) % 2 = 1)

/-- A packet is illegal when any of rule R74 (a) to (e) holds. -/
def packetIllegal (p : List Byte) : Bool :=
  illegalEmpty p || illegalOpcode p || illegalArg p || illegalReserved p || illegalLength p

end Sys2Proof
end

