-- ==== Sys2Proof/Decode.lean ====
section
/-! DEFINITION. From packets to commands and back (30_encoding.md Part B): the number helpers of 00_scope.md rule R10,
the opcode rows, a decoder that is total on any bytes and names why it rejects, and the encoder. -/

namespace Sys2Proof

/-- `sext_n(v)`: the `n`-bit two's-complement reading of `v` (00_scope.md rule R10). -/
def sext (n : Nat) (v : Nat) : Int := if v < 2 ^ (n - 1) then (v : Int) else (v : Int) - 2 ^ n

/-- `enc_n(x) = x mod 2^n`: the two's-complement encoding of `x` (00_scope.md rule R10). -/
def enc (n : Nat) (x : Int) : Nat := (x % 2 ^ n).toNat

/-- The two bytes of a 16-bit number inside a packet, low byte first whatever `ORD` is (30_encoding.md rule R67). -/
def packet16 (u : Nat) : List Byte := [BitVec.ofNat 8 u, BitVec.ofNat 8 (u / 256)]

/-- The number two packet bytes spell: `P[k] + 256 × P[k+1]` (30_encoding.md rules R70, R72). -/
def unpack16 (lo hi : Byte) : Nat := lo.toNat + 256 * hi.toNat

/-- Why a packet is no command (30_encoding.md rule R74, clauses (a) to (e) in order). -/
inductive Illegal
  | emptyPacket
  | unassignedOpcode
  | argNotZero
  | reservedBit
  | badLength
deriving DecidableEq, Repr

/-- The seven operations, as the opcode byte alone tells them apart (30_encoding.md rule R73). -/
inductive Op
  | cfg
  | dest
  | openSocket
  | convert
  | send
  | frame
  | close
deriving DecidableEq, Repr

/-- One row of spec/opcode_table.json: the opcode bytes `b` with `b & mask = pattern`. -/
structure OpcodeRow where
  op      : Op
  pattern : Byte
  mask    : Byte
deriving DecidableEq, Repr

/-- spec/opcode_table.json, `match` and `mask` of each row (30_encoding.md rule R73). -/
def opcodeRows : List OpcodeRow :=
  [ ⟨.cfg, 0x10, 0xF8⟩, ⟨.dest, 0x20, 0xFF⟩, ⟨.openSocket, 0x30, 0xFF⟩, ⟨.convert, 0x40, 0xFF⟩,
    ⟨.send, 0x50, 0xFF⟩, ⟨.frame, 0x60, 0xFF⟩, ⟨.close, 0x70, 0xFF⟩ ]

/-- The row that an opcode byte fits: "finds the row whose `match`/`mask` ... fits" (30_encoding.md rule R73). -/
def opcodeOf (b : Byte) : Option Op :=
  (opcodeRows.find? fun r => (b &&& r.mask) == r.pattern).map OpcodeRow.op

/-- Why an opcode byte fits no row: rule R74 (b), (d) or (c). -/
def whyNoOpcode (b : Byte) : Illegal :=
  if b.toNat / 16 = 0 ∨ 8 ≤ b.toNat / 16 then .unassignedOpcode
  else if b.toNat / 16 = 1 then .reservedBit
  else .argNotZero

/-- The `FMT` code: 0 is `Int16Stereo`, 1 is `Int32Stereo` (30_encoding.md rule R60). -/
def formatOfBit (b : Bool) : SampleFormat := if b then .int32Stereo else .int16Stereo

/-- The `FMT` code of a format (30_encoding.md rule R60). -/
def formatCode : SampleFormat → Nat
  | .int16Stereo => 0
  | .int32Stereo => 1

/-- The channel code: 0 is `Left`, 1 is `Right` (30_encoding.md rule R61). -/
def channelOfBit (b : Bool) : Channel := if b then .right else .left

/-- The code of a channel (30_encoding.md rule R61). -/
def channelCode : Channel → Nat
  | .left => 0
  | .right => 1

/-- SEND's operand field: `samples[k] = sext_16(P[1+2k] + 256 × P[2+2k])`; no value for an odd number of bytes
(30_encoding.md rule R72). -/
def decodeSamples : List Byte → Option (List Int)
  | [] => some []
  | [_] => none
  | lo :: hi :: rest => (decodeSamples rest).map (sext 16 (unpack16 lo hi) :: ·)

/-- The operand field of a packet whose opcode byte `b` fits the row of `op`, with the row's length condition
(30_encoding.md rules R68 to R72). -/
def decodeOperands (op : Op) (b : Byte) (operand : List Byte) : Except Illegal Instr :=
  match op, operand with
  | .cfg, [] =>
    .ok (.cfg (formatOfBit (b.getLsbD 0)) (channelOfBit (b.getLsbD 1)) (channelOfBit (b.getLsbD 2)))
  | .cfg, _ :: _ => .error .badLength
  | .dest, lo :: hi :: text => .ok (.dest text (BitVec.ofNat 16 (unpack16 lo hi)))
  | .dest, _ => .error .badLength
  | .openSocket, [] => .ok .openSocket
  | .openSocket, _ :: _ => .error .badLength
  | .convert, raw => .ok (.convert raw)
  | .send, bytes =>
    match decodeSamples bytes with
    | some samples => .ok (.send samples)
    | none => .error .badLength
  | .frame, raw => .ok (.frame raw)
  | .close, [] => .ok .close
  | .close, _ :: _ => .error .badLength

/-- The decoder: total on any byte sequence, and independent of the state (30_encoding.md rules R73 to R75). -/
def decode : List Byte → Except Illegal Instr
  | [] => .error .emptyPacket
  | b :: operand =>
    match opcodeOf b with
    | some op => decodeOperands op b operand
    | none => .error (whyNoOpcode b)

/-- The encoder: the packet of a command (30_encoding.md rules R68 to R72 and R76). -/
def encode : Instr → List Byte
  | .cfg fmt out mon => [BitVec.ofNat 8 (0x10 + 4 * channelCode mon + 2 * channelCode out + formatCode fmt)]
  | .dest text port => 0x20 :: packet16 port.toNat ++ text
  | .openSocket => [0x30]
  | .convert raw => 0x40 :: raw
  | .send samples => 0x50 :: samples.flatMap fun x => packet16 (enc 16 x)
  | .frame raw => 0x60 :: raw
  | .close => [0x70]

/-- The `n` lowest bytes of a number, the lowest first. -/
def bytesOfNat : Nat → Nat → List Byte
  | 0, _ => []
  | n + 1, w => BitVec.ofNat 8 w :: bytesOfNat n (w / 256)

/-- A packet filled up with zero bytes to the shortest length its format allows: DEST's port (30_encoding.md rule
R70) and the second byte of SEND's last sample (rule R72). A packet's length is no part of its bits (rule R75), so a
table word without its operand bytes stands for the shortest legal packet (log entry 7). -/
def padToFormat (p : List Byte) : List Byte :=
  match packetOpc p with
  | 2 => p ++ List.replicate (3 - p.length) 0
  | 5 => p ++ List.replicate ((p.length + 1) % 2) 0
  | _ => p

/-- The packet whose first `nbits` bits are `w`, as spec/opcode_table.json numbers them: byte `k` is bits `8k+7..8k`. -/
def packetOfWord (nbits w : Nat) : List Byte := padToFormat (bytesOfNat (max 1 ((nbits + 7) / 8)) w)

/-- What the decoder reads from the instruction whose bits are `w` (`none`: no command). -/
def decodeTableWord (nbits w : Nat) : Option Instr := (decode (packetOfWord nbits w)).toOption

end Sys2Proof
end

