-- ==== Sys2Proof/Config.lean ====
section
/-! DEFINITION. What one implementation fixes (00_scope.md rule R8) and the free values of the outside agents:
the transport's answers (42_forwarder.md rule R136) and the address parser (42_forwarder.md rule R131). -/

namespace Sys2Proof

/-- One draw of the transport: everything its answer to ONE request can hold. Which request it answers decides which
fields are read, so that every draw stands for an answer that 42_forwarder.md rule R136 allows
(93_implementation_defined.md U7: "a draw per request, within the shapes of rule R136"). -/
structure Draw where
  /-- The transport did what was asked (`CreateOk`, `Ok`, `Sent`); otherwise it answers an error with `code`. -/
  accept : Bool
  /-- The handle of a `CreateOk`. -/
  handle : Handle
  /-- The code of a `CreateErr` or an `Err`. -/
  code   : Code
  /-- The byte count of a `Sent`. -/
  count  : Nat
deriving DecidableEq, Repr, Inhabited

/-- `REPEAT_THRESHOLD`, the run length at which a diagnostic is due (00_scope.md rule R8, 92_eei_decisions.md D23). -/
abbrev Config.repeatThreshold : Nat := 5

/-- The level of the strap `ORD` on this hardware (00_scope.md rule R8, 92_eei_decisions.md D3). -/
abbrev Config.ordStrap : ByteOrder := .little

/-- FREE VALUE: the transport's draw number `k`, where State lists none (42_forwarder.md rule R136; log entry 1). -/
opaque Config.freeDraw : Nat → Draw

/-- FREE VALUE: `ParseAddr` on a text for which State lists no result: "a total, deterministic function from a byte
string" (00_scope.md rule R8, 92_eei_decisions.md D10; log entry 2). `none` is `Fail`. -/
opaque Config.parseAddr : List Byte → Option Resolved

end Sys2Proof
end

