-- ==== Sys2Proof/Machine/State.lean ====
section
/-! DEFINITION. The state of the block (10_state.md), its events (60_exceptions.md rule R176), its responses (rule
R170), the inputs of the outside agents (00_scope.md rule R7) and the state after reset (10_state.md rule R32). -/

namespace Sys2Proof.Machine

/-- `CFG`, the converter configuration register (10_state.md rule R21). -/
structure CfgReg where
  fmt    : SampleFormat
  out    : Channel
  mon    : Channel
  cvalid : Bool
deriving DecidableEq, Repr

/-- `FSTATE`, the forwarder state; its five values and no other (10_state.md rule R22). -/
inductive FState
  | unconfigured
  | configured
  /-- `Open` in the spec. -/
  | opened
  | failed
  | closed
deriving DecidableEq, Repr

/-- `DEST`, the destination register (10_state.md rule R24). -/
structure Destination where
  family : Family
  addr   : List Byte
  port   : BitVec 16
deriving DecidableEq, Repr

/-- `RepeatRun`: the transient registers `LAST` and `RUN` (10_state.md rule R25). -/
structure RepeatRun where
  last : Int
  run  : Nat
deriving DecidableEq, Repr

/-- `RepeatDiagnostic` (30_encoding.md rule R65). -/
structure RepeatDiagnostic where
  value : Int
  count : Nat
deriving DecidableEq, Repr

/-- The transient datapath registers of one CONVERT or FRAME (10_state.md rule R25). They "do not exist between
operations" (rule R32), so State does not hold them. `LAST` and `RUN` "have no value before the first frame". -/
structure ScanRegs where
  idx   : Nat
  run   : Option RepeatRun
  mono  : List Int
  diags : List RepeatDiagnostic
deriving DecidableEq, Repr

/-- The requests to the transport (42_forwarder.md rule R136). -/
inductive TransportRequest
  | create
  | setReuse (h : Handle)
  | setNonBlock (h : Handle)
  | sendTo (h : Handle) (dest : Destination) (payload : List Byte)
  | release (h : Handle)
deriving DecidableEq, Repr

/-- The transport's answers to `Create` (42_forwarder.md rule R136). -/
inductive CreateAnswer
  | createOk (h : Handle)
  | createErr (code : Code)
deriving DecidableEq, Repr

/-- The transport's answers to `SetReuse` and `SetNonBlock` (42_forwarder.md rule R136). -/
inductive OptionAnswer
  | ok
  | err (code : Code)
deriving DecidableEq, Repr

/-- The transport's answers to `SendTo` (42_forwarder.md rule R136). -/
inductive SendAnswer
  | sent (n : Nat)
  | err (code : Code)
deriving DecidableEq, Repr

/-- The severity of a log event (60_exceptions.md rule R176). -/
inductive Severity
  | warning
  | error
deriving DecidableEq, Repr

/-- The log kinds with the data each carries (60_exceptions.md rule R176). -/
inductive LogKind
  | malformed (expectedMultiple actual : Nat)
  | repeatRun (value : Int) (count : Nat)
  | reuseFailed (code : Code)
  | socketCreateFailed (code : Code)
  | nonBlockFailed (code : Code)
  | sendFailed (code : Code)
  | sendPartial (sent expected : Nat)
  | addressUnparsable
deriving DecidableEq, Repr

/-- The `cause` of a `SocketError` (60_exceptions.md rule R170). -/
inductive SocketCause
  | create
  | nonBlock
deriving DecidableEq, Repr

/-- The `kind` of a `SendError`, with its data (60_exceptions.md rule R170). -/
inductive SendFailure
  | transport (code : Code)
  | short (sent expected : Nat)
deriving DecidableEq, Repr

/-- The statuses of an operation's response, each with the info it carries (60_exceptions.md rule R170). -/
inductive Status
  | ok
  | malformedBufferError (expectedMultiple actual : Nat)
  | addressError
  | socketError (cause : SocketCause) (code : Code)
  | sendError (kind : SendFailure)
  | invalidState
  | notConfigured
  | configLocked
  | illegalCommand
deriving DecidableEq, Repr

/-- The events an operation emits (60_exceptions.md rule R176). -/
inductive Event
  | log (sev : Severity) (kind : LogKind)
  | mono (samples : List Int)
  | request (r : TransportRequest)
  | rsp (status : Status)
deriving DecidableEq, Repr

/-- What the outside delivers to the block: a command packet (30_encoding.md rule R67), or an assertion of the reset
input, with the level the strap `ORD` has at that moment (70_reset_and_hazards.md rule R200). -/
inductive HostInput
  | packet (bytes : List Byte)
  | reset (strap : ByteOrder)
deriving DecidableEq, Repr

/-- The machine: the persistent state of the block (10_state.md rule R20: `CFG`, `FSTATE`, `SOCK`, `HANDLE`, `DEST`),
the sampled strap `ORD` (rule R32), and the block's four interfaces (92_eei_decisions.md D2) as plain data. -/
structure State where
  /-- `CFG` (rule R21). -/
  cfg       : CfgReg
  /-- `FSTATE` (rule R22). -/
  fstate    : FState
  /-- `SOCK` (rule R23). -/
  sock      : Bool
  /-- `HANDLE` (rule R23); it has a meaning only while `SOCK = 1`. -/
  handle    : Handle
  /-- `DEST` (rule R24). -/
  dest      : Destination
  /-- `ORD`: the strap's level, sampled at reset (rule R32). -/
  ord       : ByteOrder
  /-- The command input and the reset input: what the host delivers next, in order (00_scope.md rule R7). -/
  inputs    : List HostInput
  /-- The event output: every event emitted so far, oldest first (60_exceptions.md rule R176). -/
  events    : List Event
  /-- MODEL'S OWN: the transport's next draws; after them it draws `Config.freeDraw` (log entry 1). -/
  transport : List Draw
  /-- MODEL'S OWN: how many draws were taken (log entry 1). -/
  drawCount : Nat
  /-- MODEL'S OWN: known values of `ParseAddr`; elsewhere it is `Config.parseAddr` (log entry 2). -/
  resolver  : List (List Byte × Option Resolved)
deriving DecidableEq, Repr

/-- Why the machine stops. -/
inductive Fault
  /-- Raised by CONVERT and FRAME if a sample load leaves the raw buffer, where `MemRead` "is defined only when
  `off + n ≤ len(RAW)`" (20_memory.md rule R41). The length check rules it out in every state. Safe: it stops. -/
  | readOutsideRaw
deriving DecidableEq, Repr

/-- Why an instruction has no meaning. -/
inductive Refusal
  /-- Raised by an arm of `exec` whose instruction has no meaning yet; no arm is left so. Safe: it stops. -/
  | notModelled (mnemonic : String)
deriving DecidableEq, Repr

/-- The machine right after reset (10_state.md rule R32): `CVALID = 0`, `FSTATE = Unconfigured`, `SOCK = 0`, `ORD` the
strap's level. DESIGN CHOICE (log entry 4): `FMT`, `OUT`, `MON`, `HANDLE` and `DEST`, which rule R32 leaves unspecified
and unread, hold the values of code 0 and zeros. DESIGN CHOICE (log entries 1, 2, 6): the interfaces hold nothing. -/
def State.reset : State where
  cfg       := { fmt := .int16Stereo, out := .left, mon := .left, cvalid := false }
  fstate    := .unconfigured
  sock      := false
  handle    := { id := 0 }
  dest      := { family := { id := 0 }, addr := [], port := 0 }
  ord       := Config.ordStrap
  inputs    := []
  events    := []
  transport := []
  drawCount := 0
  resolver  := []

end Sys2Proof.Machine
end

