-- ==== Sys2Proof/Machine/Operands.lean ====
section
/-! DEFINITION. The data spaces `RAW` and `PAYLOAD` and the sample arithmetic (20_memory.md rules R40 to R46,
30_encoding.md rule R60, 41_converter.md rules R100 to R103). -/

namespace Sys2Proof.Machine

/-- `CHANNELS`: channels per frame (00_scope.md rule R8). -/
def channels : Nat := 2

/-- `BPS(fmt)`: bytes per sample (30_encoding.md rule R60). -/
def bytesPerSample : SampleFormat → Nat
  | .int16Stereo => 2
  | .int32Stereo => 4

/-- `FRAME_SIZE(fmt)`: bytes per frame (00_scope.md rule R8). -/
def frameSize (fmt : SampleFormat) : Nat := channels * bytesPerSample fmt

/-- `SHIFT(fmt)`: the right shift that normalises to 16 bits (30_encoding.md rule R60). -/
def shift : SampleFormat → Nat
  | .int16Stereo => 0
  | .int32Stereo => 16

/-- `num_frames = len(RAW) div FRAME_SIZE(FMT)` (41_converter.md rule R100). -/
def numFrames (fmt : SampleFormat) (raw : List Byte) : Nat := raw.length / frameSize fmt

/-- `LengthOK(RAW, FMT)` (41_converter.md rule R101). -/
def lengthOK (fmt : SampleFormat) (raw : List Byte) : Bool := raw.length % frameSize fmt == 0

/-- `MemRead(off, n)`: the `n` bytes of the raw buffer from `off` on, "defined only when `off + n ≤ len(RAW)`"
(20_memory.md rule R41). -/
def memRead (raw : List Byte) (off n : Nat) : Option (List Byte) :=
  if off + n ≤ raw.length then some ((raw.drop off).take n) else none

/-- `uint_Little(bs)`: `bs[0]` is least significant (20_memory.md rule R42). -/
def uintLittle : List Byte → Nat
  | [] => 0
  | b :: bs => b.toNat + 256 * uintLittle bs

/-- `uint_Big(bs)`: `bs[0]` is most significant (20_memory.md rule R42). -/
def uintBig : List Byte → Nat
  | [] => 0
  | b :: bs => b.toNat * 256 ^ bs.length + uintBig bs

/-- `uint_ORD(bs)` (20_memory.md rule R42). -/
def uintOrd : ByteOrder → List Byte → Nat
  | .little, bs => uintLittle bs
  | .big, bs => uintBig bs

/-- `LoadSample(off, w)`: sign-extended from `8w` bits (20_memory.md rule R42). -/
def loadSample (ord : ByteOrder) (raw : List Byte) (off w : Nat) : Option Int :=
  (memRead raw off w).map fun bs => sext (8 * w) (uintOrd ord bs)

/-- The offset of channel `c`'s sample in frame `i`: frame index × frame size + channel × sample width
(20_memory.md rule R43). -/
def sampleOffset (fmt : SampleFormat) (c : Channel) (i : Nat) : Nat :=
  i * frameSize fmt + channelCode c * bytesPerSample fmt

/-- `Chan(c, i)`: `Left(i)` or `Right(i)`, the raw value (20_memory.md rule R43, 41_converter.md rule R102). -/
def chan (ord : ByteOrder) (fmt : SampleFormat) (raw : List Byte) (c : Channel) (i : Nat) : Option Int :=
  loadSample ord raw (sampleOffset fmt c i) (bytesPerSample fmt)

/-- `asr(x, k) = floor(x / 2^k)` (00_scope.md rule R10); Lean's `/` on integers rounds down for a positive divisor. -/
def asr (x : Int) (k : Nat) : Int := x / 2 ^ k

/-- `Norm(FMT, v) = asr(v, SHIFT(FMT))` (41_converter.md rule R103). -/
def normalise (fmt : SampleFormat) (v : Int) : Int := asr v (shift fmt)

/-- `MemWrite(k, 2, s)`: the two payload bytes of one sample, in order `ORD` (20_memory.md rule R46). -/
def storeSample (ord : ByteOrder) (s : Int) : List Byte :=
  match ord with
  | .little => [BitVec.ofNat 8 (enc 16 s), BitVec.ofNat 8 (enc 16 s / 256)]
  | .big => [BitVec.ofNat 8 (enc 16 s / 256), BitVec.ofNat 8 (enc 16 s)]

/-- `Serialize(samples)`: sample `k` at payload bytes `2k` and `2k+1` (42_forwarder.md rule R133). -/
def serialize (ord : ByteOrder) (samples : List Int) : List Byte := samples.flatMap (storeSample ord)

end Sys2Proof.Machine
end

