-- ==== Sys2Proof/Machine/Flags.lean ====
section
/-! DEFINITION. The block has no condition codes (10_state.md rule R28). Its status bits are `CVALID` and `SOCK`; here
stand the register's bits and every numeric code and severity the spec assigns (10_state.md rules R21, R22;
60_exceptions.md rules R170, R176; 92_eei_decisions.md D17). No operation reads a code back. -/

namespace Sys2Proof.Machine

/-- The four bits of `CFG`: `FMT` bit 0, `OUT` bit 1, `MON` bit 2, `CVALID` bit 3 (10_state.md rule R21). -/
def CfgReg.bits (c : CfgReg) : BitVec 4 :=
  BitVec.ofNat 4 (formatCode c.fmt + 2 * channelCode c.out + 4 * channelCode c.mon + 8 * c.cvalid.toNat)

/-- The code of a forwarder state, 3 bits (10_state.md rule R22). -/
def FState.code : FState → BitVec 3
  | .unconfigured => 0
  | .configured => 1
  | .opened => 2
  | .failed => 3
  | .closed => 4

/-- The code of a status (60_exceptions.md rule R170). -/
def Status.code : Status → BitVec 8
  | .ok => 0x00
  | .malformedBufferError _ _ => 0x01
  | .addressError => 0x02
  | .socketError _ _ => 0x03
  | .sendError _ => 0x04
  | .invalidState => 0x05
  | .notConfigured => 0x06
  | .configLocked => 0x07
  | .illegalCommand => 0x08

/-- The code of a `SocketError`'s cause (60_exceptions.md rule R170). -/
def SocketCause.code : SocketCause → Nat
  | .create => 0
  | .nonBlock => 1

/-- The code of a `SendError`'s kind (60_exceptions.md rule R170). -/
def SendFailure.code : SendFailure → Nat
  | .transport _ => 0
  | .short _ _ => 1

/-- The code of a log kind (60_exceptions.md rule R176). -/
def LogKind.code : LogKind → Nat
  | .malformed _ _ => 1
  | .repeatRun _ _ => 2
  | .reuseFailed _ => 3
  | .socketCreateFailed _ => 4
  | .nonBlockFailed _ => 5
  | .sendFailed _ => 6
  | .sendPartial _ _ => 7
  | .addressUnparsable => 8

/-- The severity of a log kind (60_exceptions.md rule R176). -/
def LogKind.severity : LogKind → Severity
  | .malformed _ _ => .warning
  | .repeatRun _ _ => .warning
  | .reuseFailed _ => .warning
  | .socketCreateFailed _ => .error
  | .nonBlockFailed _ => .error
  | .sendFailed _ => .warning
  | .sendPartial _ _ => .warning
  | .addressUnparsable => .error

/-- The log event a status brings with it, if any (60_exceptions.md rule R170, column "log event"). -/
def Status.logKind : Status → Option LogKind
  | .ok => none
  | .malformedBufferError expectedMultiple actual => some (.malformed expectedMultiple actual)
  | .addressError => some .addressUnparsable
  | .socketError .create code => some (.socketCreateFailed code)
  | .socketError .nonBlock code => some (.nonBlockFailed code)
  | .sendError (.transport code) => some (.sendFailed code)
  | .sendError (.short sent expected) => some (.sendPartial sent expected)
  | .invalidState => none
  | .notConfigured => none
  | .configLocked => none
  | .illegalCommand => none

end Sys2Proof.Machine
end

