-- ==== Sys2Proof/Machine/Ops.lean ====
section
/-! DEFINITION. The named operations on the state: register writes, `emit`, `ask`, `raise`, `done` (00_scope.md rule
R10), reset (70_reset_and_hazards.md rule R200) and taking the next input. -/

namespace Sys2Proof.Machine

/-- Write the whole of `CFG` (only CFG does, 10_state.md rule R21). -/
def State.writeCfg (c : CfgReg) (s : State) : State := { s with cfg := c }

/-- Write `DEST` (only DEST does, 10_state.md rule R24). -/
def State.writeDest (d : Destination) (s : State) : State := { s with dest := d }

/-- Write `FSTATE` (10_state.md rule R22). -/
def State.writeFState (f : FState) (s : State) : State := { s with fstate := f }

/-- `SOCK <- 1; HANDLE <- h` (10_state.md rule R23). -/
def State.holdSocket (h : Handle) (s : State) : State := { s with sock := true, handle := h }

/-- `SOCK <- 0` (10_state.md rule R23). -/
def State.dropSocket (s : State) : State := { s with sock := false }

/-- `emit` each event of a list, in order (00_scope.md rule R10). -/
def State.emit (es : List Event) (s : State) : State := { s with events := s.events ++ es }

/-- A log event of a kind, at the severity 60_exceptions.md rule R176 gives that kind. -/
def logOf (k : LogKind) : Event := .log k.severity k

/-- The events of `raise X(info)`: the log event of `X` if it has one, then `Rsp` (60_exceptions.md rule R179). -/
def errorEvents (x : Status) : List Event := (x.logKind.map logOf).toList ++ [.rsp x]

/-- `raise X(info)`, the one way an error or a rejection is taken: "Nothing is saved, no mode changes, no handler runs,
control goes nowhere" (60_exceptions.md rule R179). There is no return operation (rule R180). -/
def State.raise (x : Status) (s : State) : State := s.emit (errorEvents x)

/-- `done`: emit `Rsp(OK)` and end the operation (00_scope.md rule R10). -/
def State.finish (s : State) : State := s.emit [.rsp .ok]

/-- What an illegal packet does: `Rsp(IllegalCommand)` and nothing else, whichever clause of 30_encoding.md rule R74
made it illegal. -/
def State.rejectPacket (_why : Illegal) (s : State) : State := s.raise .illegalCommand

/-- The transport's next draw (42_forwarder.md rule R136; log entry 1). -/
def State.nextDraw (s : State) : Draw := (s.transport.head?).getD (Config.freeDraw s.drawCount)

/-- The state once the transport's next draw is taken. -/
def State.afterDraw (s : State) : State :=
  { s with transport := s.transport.tail, drawCount := s.drawCount + 1 }

/-- `ask T` of 00_scope.md rule R10 as far as the state goes: the request is an event of the output list
(42_forwarder.md rule R136), and one draw is taken. -/
def State.asked (r : TransportRequest) (s : State) : State := (s.emit [.request r]).afterDraw

/-- A draw read as an answer to `Create` (42_forwarder.md rule R136). -/
def createAnswer (d : Draw) : CreateAnswer := if d.accept then .createOk d.handle else .createErr d.code

/-- A draw read as an answer to `SetReuse` or `SetNonBlock` (42_forwarder.md rule R136). -/
def optionAnswer (d : Draw) : OptionAnswer := if d.accept then .ok else .err d.code

/-- A draw read as an answer to a `SendTo` of `len` bytes: `Sent(n)` has `0 ≤ n ≤ len(p)` (42_forwarder.md rule R136),
so a count above `len` stands for `len` (log entry 1). -/
def sendAnswer (d : Draw) (len : Nat) : SendAnswer := if d.accept then .sent (min d.count len) else .err d.code

/-- `ParseAddr(text)` (00_scope.md rule R8; log entry 2). -/
def State.parseAddr (s : State) (text : List Byte) : Option Resolved :=
  (s.resolver.lookup text).getD (Config.parseAddr text)

/-- Reset of the block (70_reset_and_hazards.md rules R200, R201): every element at its reset value, `ORD` the strap's
level, a held handle forgotten; no event and no request. The interfaces are not the block's and stay. -/
def State.resetBlock (strap : ByteOrder) (s : State) : State :=
  { s with
    cfg := State.reset.cfg, fstate := State.reset.fstate, sock := State.reset.sock,
    handle := State.reset.handle, dest := State.reset.dest, ord := strap }

/-- What the next step has to do (10_state.md rule R27: "the next command the host delivers"). -/
inductive Fetched
  /-- Nothing was delivered: the block is idle (60_exceptions.md rule R187). -/
  | idle
  | reset (strap : ByteOrder)
  | illegal (why : Illegal)
  | run (i : Instr)
deriving DecidableEq, Repr

/-- Take a look at the next input, and decode it if it is a packet (60_exceptions.md rule R178 (0)). -/
def State.fetch (s : State) : Fetched :=
  match s.inputs with
  | [] => .idle
  | .reset strap :: _ => .reset strap
  | .packet p :: _ =>
    match decode p with
    | .ok i => .run i
    | .error why => .illegal why

/-- The state once the next input is taken. -/
def State.takeInput (s : State) : State := { s with inputs := s.inputs.tail }

/-- A packet delivered ahead of everything that waits. -/
def State.placePacket (p : List Byte) (s : State) : State := { s with inputs := .packet p :: s.inputs }

end Sys2Proof.Machine
end

