-- ==== Sys2Proof/Machine/Converter.lean ====
section
/-! DEFINITION. The SampleConverter (41_converter.md): the one-pass loop of rule R106 and CONVERT (rule R108). -/

namespace Sys2Proof.Machine

/-- The diagnostic of a run that ends: one if its length reached `REPEAT_THRESHOLD`, else none (41_converter.md rule
R105). -/
def closeRun (r : RepeatRun) : List RepeatDiagnostic :=
  if Config.repeatThreshold ≤ r.run then [{ value := r.last, count := r.run }] else []

/-- One iteration of the loop of 41_converter.md rule R106, on the loaded samples `o = Chan(OUT, IDX)` and
`m = Chan(MON, IDX)`. -/
def frameStep (fmt : SampleFormat) (o m : Int) (r : ScanRegs) : ScanRegs :=
  let r' := { r with idx := r.idx + 1, mono := r.mono ++ [normalise fmt o] }
  match r.run with
  | none => { r' with run := some { last := m, run := 1 } }
  | some rr =>
    if m = rr.last then { r' with run := some { rr with run := rr.run + 1 } }
    else { r' with run := some { last := m, run := 1 }, diags := r.diags ++ closeRun rr }

/-- The transient registers as the operation initialises them (41_converter.md rule R106). -/
def scanStart : ScanRegs := { idx := 0, run := none, mono := [], diags := [] }

/-- The loop of 41_converter.md rule R106, with `k` iterations left. -/
def scanLoop (ord : ByteOrder) (c : CfgReg) (raw : List Byte) : Nat → ScanRegs → Option ScanRegs
  | 0, r => some r
  | k + 1, r =>
    match chan ord c.fmt raw c.out r.idx, chan ord c.fmt raw c.mon r.idx with
    | some o, some m => scanLoop ord c raw k (frameStep c.fmt o m r)
    | _, _ => none

/-- The closing diagnostic and the result pair (41_converter.md rule R106, the lines after the loop). -/
def scanResult (r : ScanRegs) : List Int × List RepeatDiagnostic :=
  (r.mono, r.diags ++ (r.run.map closeRun).getD [])

/-- `Convert(RAW, FMT, OUT, MON) = (MONO, DIAGS)` (41_converter.md rule R106); no value if a load leaves the buffer. -/
def convert (ord : ByteOrder) (c : CfgReg) (raw : List Byte) : Option (List Int × List RepeatDiagnostic) :=
  (scanLoop ord c raw (numFrames c.fmt raw) scanStart).map scanResult

/-- The `Repeat` log event of a diagnostic (41_converter.md rule R108). -/
def repeatLog (d : RepeatDiagnostic) : Event := logOf (.repeatRun d.value d.count)

/-- The converter half that CONVERT and FRAME share (41_converter.md rule R108, 43_pipeline.md rule R160): the two
checks, the conversion, its `Repeat` log events, and then what the operation does with the mono sequence. -/
def convertThen (raw : List Byte) (k : List Int → State → State) (s : State) : Host.Outcome State Fault Refusal :=
  if s.cfg.cvalid = false then .next (s.raise .notConfigured)
  else if lengthOK s.cfg.fmt raw = false then
    .next (s.raise (.malformedBufferError (frameSize s.cfg.fmt) raw.length))
  else
    match convert s.ord s.cfg raw with
    | some (mono, diags) => .next (k mono (s.emit (diags.map repeatLog)))
    | none => .fault .readOutsideRaw

/-- CONVERT (41_converter.md rule R108). -/
def execConvert (raw : List Byte) (s : State) : Host.Outcome State Fault Refusal :=
  convertThen raw (fun mono s => (s.emit [.mono mono]).finish) s

end Sys2Proof.Machine
end

