-- ==== Sys2Proof/Machine/Forwarder.lean ====
section
/-! DEFINITION. The DatagramForwarder (42_forwarder.md): DEST, OPEN, SEND, CLOSE. -/

namespace Sys2Proof.Machine

/-- DEST (42_forwarder.md rule R131). -/
def execDest (text : List Byte) (port : BitVec 16) (s : State) : Host.Outcome State Fault Refusal :=
  .next <|
    if s.fstate ≠ .unconfigured then s.raise .invalidState
    else
      match s.parseAddr text with
      | none => s.raise .addressError
      | some a => ((s.writeDest { family := a.family, addr := a.addr, port := port }).writeFState .configured).finish

/-- OPEN's step 3, non-blocking mode: on an error the socket is kept (42_forwarder.md rule R132,
92_eei_decisions.md D12). -/
def askNonBlock (s : State) : State :=
  match optionAnswer s.nextDraw with
  | .err code => ((s.asked (.setNonBlock s.handle)).writeFState .failed).raise (.socketError .nonBlock code)
  | .ok => ((s.asked (.setNonBlock s.handle)).writeFState .opened).finish

/-- OPEN's step 2, address reuse, best effort: an error is logged and the operation goes on (42_forwarder.md rule
R132). -/
def askReuse (s : State) : State :=
  match optionAnswer s.nextDraw with
  | .err code => (s.asked (.setReuse s.handle)).emit [logOf (.reuseFailed code)]
  | .ok => s.asked (.setReuse s.handle)

/-- OPEN's step 1, one datagram socket, and the steps after it (42_forwarder.md rule R132). -/
def askCreate (s : State) : State :=
  match createAnswer s.nextDraw with
  | .createErr code => ((s.asked .create).writeFState .failed).raise (.socketError .create code)
  | .createOk h => askNonBlock (askReuse ((s.asked .create).holdSocket h))

/-- OPEN (42_forwarder.md rule R132). -/
def execOpenSocket (s : State) : Host.Outcome State Fault Refusal :=
  .next (if s.fstate ≠ .configured then s.raise .invalidState else askCreate s)

/-- The forwarder's `send`: SEND, and the second half of FRAME (42_forwarder.md rule R134). -/
def sendSamples (samples : List Int) (s : State) : State :=
  if s.fstate ≠ .opened then s.raise .invalidState
  else
    let p := serialize s.ord samples
    let s' := s.asked (.sendTo s.handle s.dest p)
    match sendAnswer s.nextDraw p.length with
    | .err code => s'.raise (.sendError (.transport code))
    | .sent n => if n ≠ p.length then s'.raise (.sendError (.short n p.length)) else s'.finish

/-- SEND (42_forwarder.md rule R134). -/
def execSend (samples : List Int) (s : State) : Host.Outcome State Fault Refusal := .next (sendSamples samples s)

/-- `if SOCK = 1 then ask Release(HANDLE); SOCK <- 0`: the transport gives no answer the block uses, so none is drawn
(42_forwarder.md rules R135, R136). -/
def releaseHeld (s : State) : State :=
  if s.sock then (s.emit [.request (.release s.handle)]).dropSocket else s

/-- CLOSE (42_forwarder.md rule R135): valid in every state; `Failed` is kept. -/
def execClose (s : State) : Host.Outcome State Fault Refusal :=
  .next ((if s.fstate ≠ .failed then (releaseHeld s).writeFState .closed else releaseHeld s).finish)

end Sys2Proof.Machine
end

