-- ==== Sys2Proof/Machine/Pipeline.lean ====
section
/-! DEFINITION. The per-buffer pipeline operation FRAME (43_pipeline.md). -/

namespace Sys2Proof.Machine

/-- FRAME (43_pipeline.md rule R160): CONVERT without its `Mono` event, then SEND of the mono sequence. -/
def execFrame (raw : List Byte) (s : State) : Host.Outcome State Fault Refusal := convertThen raw sendSamples s

end Sys2Proof.Machine
end

