-- ==== Sys2Proof/Machine/Setup.lean ====
section
/-! DEFINITION. Converter set-up: CFG (40_setup.md). -/

namespace Sys2Proof.Machine

/-- CFG (40_setup.md rule R90): accepted once, in any `FSTATE`. -/
def execCfg (fmt : SampleFormat) (out mon : Channel) (s : State) : Host.Outcome State Fault Refusal :=
  .next <|
    if s.cfg.cvalid then s.raise .configLocked
    else (s.writeCfg { fmt := fmt, out := out, mon := mon, cvalid := true }).finish

end Sys2Proof.Machine
end

