-- ==== Sys2Proof/Machine/Dispatch.lean ====
section
/-! DEFINITION. One arm per command: each calls its meaning (30_encoding.md rule R73). -/

namespace Sys2Proof.Machine

def exec (i : Instr) (s : State) : Host.Outcome State Fault Refusal :=
  match i with
  | .cfg fmt out mon => Sys2Proof.Machine.execCfg fmt out mon s
  | .dest text port => Sys2Proof.Machine.execDest text port s
  | .openSocket => Sys2Proof.Machine.execOpenSocket s
  | .convert raw => Sys2Proof.Machine.execConvert raw s
  | .send samples => Sys2Proof.Machine.execSend samples s
  | .frame raw => Sys2Proof.Machine.execFrame raw s
  | .close => Sys2Proof.Machine.execClose s

end Sys2Proof.Machine
end

