-- ==== Sys2Proof/Machine/Step.lean ====
section
/-! DEFINITION. One step: the next input the outside delivered, processed whole (00_scope.md rule R6: one command is one
atomic step; 10_state.md rule R27: there is no program counter and no stored program). -/

namespace Sys2Proof.Machine

/-- One step. With nothing delivered "the block is idle and keeps all persistent state" (60_exceptions.md rule R187). -/
def step (s : State) : Host.Outcome State Fault Refusal :=
  match s.fetch with
  | .idle => .next s
  | .reset strap => .next (s.takeInput.resetBlock strap)
  | .illegal why => .next (s.takeInput.rejectPacket why)
  | .run i => exec i s.takeInput

/-- `s` with the packet whose bits are `w` delivered as the next input (log entry 7). -/
def State.withFetchWord (s : State) (nbits w : Nat) : State := s.placePacket (packetOfWord nbits w)

end Sys2Proof.Machine
end

