-- ==== Sys2Proof/Safety.lean ====
section
/-! DEFINITION. The terms in which claims are stated: the invariant of 10_state.md rule R31, the transport's coming
answers, what an operation added to the output, and what a conversion should give, written without the machine's loop
(41_converter.md rules R104, R105). -/

namespace Sys2Proof.Machine

/-- 10_state.md rule R31 (a) and (b): `SOCK = 1` implies `FSTATE` is `Open` or `Failed`; `Open` implies `SOCK = 1`. -/
abbrev State.Inv (s : State) : Prop :=
  (s.sock = true → s.fstate = .opened ∨ s.fstate = .failed) ∧ (s.fstate = .opened → s.sock = true)

/-- The states `FSTATE` may hold after one operation (42_forwarder.md rule R130). -/
def FState.successors : FState → List FState
  | .unconfigured => [.unconfigured, .configured, .closed]
  | .configured => [.configured, .opened, .failed, .closed]
  | .opened => [.opened, .closed]
  | .failed => [.failed]
  | .closed => [.closed]

/-- The draw that the transport makes `k` draws from now. -/
def State.upcoming (s : State) (k : Nat) : Draw := (s.transport[k]?).getD (Config.freeDraw (s.drawCount + k))

/-- Is the event a response? -/
def Event.isRsp : Event → Bool
  | .rsp _ => true
  | _ => false

/-- The requests to the transport in an event list, in order. -/
def requestsIn (es : List Event) : List TransportRequest :=
  es.filterMap fun e => match e with
    | .request r => some r
    | _ => none

/-- A request whose answer the block uses: all but `Release` (42_forwarder.md rule R136). -/
def TransportRequest.answered : TransportRequest → Bool
  | .release _ => false
  | _ => true

/-- How many `Create` requests an event list holds. -/
def createsIn (es : List Event) : Nat := es.count (.request .create)

/-- What a later output holds beyond an earlier one. -/
def State.newEvents (before after : State) : List Event := after.events.drop before.events.length

/-- The `w` bytes of channel `c`'s sample in frame `i` (30_encoding.md rules R62, R63). -/
def sampleBytes (fmt : SampleFormat) (raw : List Byte) (c : Channel) (i : Nat) : List Byte :=
  (raw.drop (i * frameSize fmt + channelCode c * bytesPerSample fmt)).take (bytesPerSample fmt)

/-- `Left(i)` or `Right(i)` (20_memory.md rule R43). -/
def sampleAt (ord : ByteOrder) (fmt : SampleFormat) (raw : List Byte) (c : Channel) (i : Nat) : Int :=
  sext (8 * bytesPerSample fmt) (uintOrd ord (sampleBytes fmt raw c i))

/-- One channel's raw values, in frame order (41_converter.md rule R102). -/
def channelValues (ord : ByteOrder) (fmt : SampleFormat) (raw : List Byte) (c : Channel) : List Int :=
  (List.range (numFrames fmt raw)).map (sampleAt ord fmt raw c)

/-- `MONO` (41_converter.md rule R104). -/
def monoOf (ord : ByteOrder) (c : CfgReg) (raw : List Byte) : List Int :=
  (channelValues ord c.fmt raw c.out).map (normalise c.fmt)

/-- `rs` is the list of the maximal runs of equal values in `vs`: it spells `vs`, no run is empty, and neighbouring
runs have different values ("Repeat run", 00_scope.md glossary). -/
def MaximalRuns (rs : List RepeatDiagnostic) (vs : List Int) : Prop :=
  (rs.flatMap fun r => List.replicate r.count r.value) = vs ∧ (∀ r ∈ rs, 1 ≤ r.count) ∧
    rs.IsChain fun a b => a.value ≠ b.value

/-- The runs of which a diagnostic is due: length 5 or more (41_converter.md rule R105). -/
def reported (rs : List RepeatDiagnostic) : List RepeatDiagnostic := rs.filter fun r => decide (5 ≤ r.count)

/-- The log events of repeat diagnostics (60_exceptions.md rule R176). -/
def repeatLogs (ds : List RepeatDiagnostic) : List Event := ds.map fun d => .log .warning (.repeatRun d.value d.count)

end Sys2Proof.Machine
end

