-- ==== Sys2Proof/Certificates/Slice0/Obligations.lean ====
section
/-! DEFINITION. The statements for the provers. Each docstring names the rule of spec/ it formalises. `exec i s = .next t`
says that the command completes with the next state `t`; where `t` is written as `s` with fields replaced, every field
not named is unchanged. -/

open Sys2Proof Sys2Proof.Machine

/-! ## Encodings -/

/-- 30_encoding.md Part B: the decoder gives back every well-formed command, with every operand. -/
def Obligations.DecodeGivesBackEncodedCommand : Prop :=
  ∀ i : Instr, i.wellFormed = true → decode (encode i) = .ok i

/-- 30_encoding.md rules R68 to R75: no packet has two readings, and no bit of a legal packet is dropped. -/
def Obligations.EncodeGivesBackDecodedPacket : Prop :=
  ∀ (p : List Byte) (i : Instr), decode p = .ok i → encode i = p ∧ i.wellFormed = true

/-- 30_encoding.md rule R74: a packet is a command unless one of (a) to (e) holds, and an illegal packet has exactly one
effect, `Rsp(IllegalCommand)`. -/
def Obligations.IllegalPacketsAreExactlyRejected : Prop :=
  (∀ p : List Byte, packetIllegal p = true ↔ ∃ why, decode p = .error why) ∧
  ∀ (s : State) (p : List Byte) (rest : List HostInput),
    s.inputs = .packet p :: rest → packetIllegal p = true →
      step s = .next { s with inputs := rest, events := s.events ++ [.rsp .illegalCommand] }

/-- 30_encoding.md rule R73: no opcode byte fits two rows of the opcode table. -/
def Obligations.OpcodeRowsDoNotOverlap : Prop :=
  ∀ b : Byte, opcodeRows.Pairwise fun r r' => ¬((b &&& r.mask) = r.pattern ∧ (b &&& r'.mask) = r'.pattern)

/-- 30_encoding.md rules R68 to R72 and 95_test_vectors.md 2.11: packets written out from the spec. -/
def Obligations.SpecPacketsDecode : Prop :=
  decode [0b00010011] = .ok (.cfg .int32Stereo .right .left) ∧
  decode [0x20, 0x8C, 0x13, 0x31] = .ok (.dest [0x31] 5004) ∧
  decode [0x30] = .ok .openSocket ∧
  decode [0x40, 0x0A, 0x00] = .ok (.convert [0x0A, 0x00]) ∧
  decode [0x50, 0xFF, 0xFF, 0x00, 0x80] = .ok (.send [-1, -32768]) ∧
  decode [0x60, 0x00] = .ok (.frame [0x00]) ∧
  decode [0x70] = .ok .close

/-! ## Samples and payloads -/

/-- 20_memory.md section 2 (rule R42, the load formula): a load that stays inside the buffer gives the signed integer of
`8w` bits that its bytes spell in the given byte order, and a load that does not has no value (rule R41). -/
def Obligations.LoadSampleSpellsBytesInOrder : Prop :=
  ∀ (raw : List Byte) (off w : Nat), w = 2 ∨ w = 4 →
    (off + w ≤ raw.length → ∀ ord, ∃ v, loadSample ord raw off w = some v ∧
      -2 ^ (8 * w - 1) ≤ v ∧ v < 2 ^ (8 * w - 1) ∧
      v % 2 ^ (8 * w) = match ord with
        | .little => ∑ k ∈ Finset.range w, ((raw.getD (off + k) 0).toNat * 2 ^ (8 * k) : Int)
        | .big => ∑ k ∈ Finset.range w, ((raw.getD (off + k) 0).toNat * 2 ^ (8 * (w - 1 - k)) : Int)) ∧
    (raw.length < off + w → ∀ ord, loadSample ord raw off w = none)

/-- 20_memory.md sections 1 and 3 (rules R41, R43, R44): in a buffer that passes the length check every sample of every
frame is read inside the buffer, at a multiple of its width, and is the sample the frame layout gives. -/
def Obligations.EverySampleLoadIsInsideTheBuffer : Prop :=
  ∀ (ord : ByteOrder) (fmt : SampleFormat) (raw : List Byte) (c : Channel) (i : Nat),
    raw.length % frameSize fmt = 0 → i < raw.length / frameSize fmt →
      sampleOffset fmt c i + bytesPerSample fmt ≤ raw.length ∧
      sampleOffset fmt c i % bytesPerSample fmt = 0 ∧
      chan ord fmt raw .left i = loadSample ord raw (i * frameSize fmt) (bytesPerSample fmt) ∧
      chan ord fmt raw .right i = loadSample ord raw (i * frameSize fmt + bytesPerSample fmt) (bytesPerSample fmt) ∧
      chan ord fmt raw c i = some (sampleAt ord fmt raw c i)

/-- 41_converter.md rule R103: normalisation is the arithmetic shift, a division that rounds down; the result is the
most-significant 16 bits and fits 16 signed bits; 16-bit samples pass unchanged. -/
def Obligations.NormalisationKeepsTopSixteenBits : Prop :=
  (∀ v : Int, -2 ^ 31 ≤ v → v < 2 ^ 31 →
    65536 * normalise .int32Stereo v ≤ v ∧ v < 65536 * (normalise .int32Stereo v + 1) ∧
    -32768 ≤ normalise .int32Stereo v ∧ normalise .int32Stereo v ≤ 32767 ∧
    BitVec.ofInt 16 (normalise .int32Stereo v) = (BitVec.ofInt 32 v).extractLsb' 16 16) ∧
  (∀ v : Int, normalise .int16Stereo v = v) ∧
  normalise .int32Stereo 0x7FFF0000 = 0x7FFF ∧ normalise .int32Stereo (-2147483648) = -32768

/-- 42_forwarder.md rule R133 with 20_memory.md rule R46: the payload has two bytes for each sample and nothing else, the
two bytes of sample `k` at `2k` and `2k+1` in order `ORD`. -/
def Obligations.SerializeStoresTwoBytesPerSample : Prop :=
  (∀ ord, serialize ord [] = []) ∧
  ∀ (ord : ByteOrder) (samples : List Int),
    (serialize ord samples).length = 2 * samples.length ∧
    ∀ (k : Nat) (x : Int), samples[k]? = some x →
      match ord with
      | .little => (serialize ord samples)[2 * k]? = some (BitVec.ofInt 16 x |>.extractLsb' 0 8) ∧
          (serialize ord samples)[2 * k + 1]? = some (BitVec.ofInt 16 x |>.extractLsb' 8 8)
      | .big => (serialize ord samples)[2 * k]? = some (BitVec.ofInt 16 x |>.extractLsb' 8 8) ∧
          (serialize ord samples)[2 * k + 1]? = some (BitVec.ofInt 16 x |>.extractLsb' 0 8)

/-! ## The converter -/

/-- 41_converter.md rule R104: the output is the configured channel's normalised value of every frame, in frame order, of
length exactly `num_frames`, whatever the monitor. -/
def Obligations.ConverterSelectsTheOutputChannel : Prop :=
  ∀ (ord : ByteOrder) (c : CfgReg) (raw : List Byte), raw.length % frameSize c.fmt = 0 →
    ∃ mono diags, convert ord c raw = some (mono, diags) ∧
      mono.length = raw.length / frameSize c.fmt ∧
      ∀ i, i < raw.length / frameSize c.fmt → mono[i]? = some (normalise c.fmt (sampleAt ord c.fmt raw c.out i))

/-- 41_converter.md rule R105, a sentence the spec marks as its own inference ("Consequences [derived: from the pseudocode
of this rule]: exactly one diagnostic per maximal run of length `≥ 5` and none for shorter runs; diagnostics appear in the
order the runs end"), with each diagnostic's value and count: the run's raw value and its whole length. -/
def Obligations.OneDiagnosticPerMaximalRun : Prop :=
  ∀ (ord : ByteOrder) (c : CfgReg) (raw : List Byte), raw.length % frameSize c.fmt = 0 →
    (∃ rs, MaximalRuns rs (channelValues ord c.fmt raw c.mon)) ∧
    ∀ rs, MaximalRuns rs (channelValues ord c.fmt raw c.mon) →
      (convert ord c raw).map Prod.snd = some (rs.filter fun r => decide (5 ≤ r.count))

/-- 41_converter.md rule R107: the empty buffer is valid and gives nothing. -/
def Obligations.EmptyBufferConvertsToNothing : Prop :=
  (∀ (ord : ByteOrder) (c : CfgReg), lengthOK c.fmt [] = true ∧ numFrames c.fmt [] = 0 ∧ convert ord c [] = some ([], [])) ∧
  ∀ s : State, s.cfg.cvalid = true →
    exec (.convert []) s = .next { s with events := s.events ++ [.mono [], .rsp .ok] }

/-- 41_converter.md rule R106, its last sentences: the two results are independent. The mono sequence does not depend on
the monitor, nor the diagnostics on the output channel. -/
def Obligations.OutputAndDiagnosticsAreIndependent : Prop :=
  ∀ (ord : ByteOrder) (fmt : SampleFormat) (o o' m m' : Channel) (v v' : Bool) (raw : List Byte),
    raw.length % frameSize fmt = 0 →
      (convert ord ⟨fmt, o, m, v⟩ raw).map Prod.fst = (convert ord ⟨fmt, o, m', v'⟩ raw).map Prod.fst ∧
      (convert ord ⟨fmt, o, m, v⟩ raw).map Prod.snd = (convert ord ⟨fmt, o', m, v'⟩ raw).map Prod.snd

/-- 41_converter.md rule R110 (a), (b), (c), (e): the payload's bytes are bytes of the buffer, copied. -/
def Obligations.PayloadBytesAreCopiedFromTheBuffer : Prop :=
  ∀ (ord : ByteOrder) (c : CfgReg) (raw : List Byte), raw.length % frameSize c.fmt = 0 →
    let p := serialize ord (monoOf ord c raw)
    let o := channelCode c.out
    (c.fmt = .int16Stereo → p.length = raw.length / 2 ∧
      ∀ k, k < raw.length / 4 → p[2 * k]? = raw[4 * k + 2 * o]? ∧ p[2 * k + 1]? = raw[4 * k + 2 * o + 1]?) ∧
    (c.fmt = .int32Stereo → p.length = raw.length / 4 ∧
      ∀ k, k < raw.length / 8 →
        match ord with
        | .little => p[2 * k]? = raw[8 * k + 4 * o + 2]? ∧ p[2 * k + 1]? = raw[8 * k + 4 * o + 3]?
        | .big => p[2 * k]? = raw[8 * k + 4 * o]? ∧ p[2 * k + 1]? = raw[8 * k + 4 * o + 1]?)

/-- 41_converter.md rule R110 (d): two monitored values are equal exactly when their bytes are, so where the runs lie, and
the diagnostics' counts, do not depend on `ORD`. -/
def Obligations.RunsDoNotDependOnByteOrder : Prop :=
  ∀ (fmt : SampleFormat) (raw : List Byte), raw.length % frameSize fmt = 0 →
    (∀ ord c i j, i < raw.length / frameSize fmt → j < raw.length / frameSize fmt →
      (sampleAt ord fmt raw c i = sampleAt ord fmt raw c j ↔ sampleBytes fmt raw c i = sampleBytes fmt raw c j)) ∧
    (∀ c rl rb, MaximalRuns rl (channelValues .little fmt raw c) → MaximalRuns rb (channelValues .big fmt raw c) →
      rl.map RepeatDiagnostic.count = rb.map RepeatDiagnostic.count) ∧
    ∀ o m v, (convert .little ⟨fmt, o, m, v⟩ raw).map (fun r => r.2.map RepeatDiagnostic.count) =
      (convert .big ⟨fmt, o, m, v⟩ raw).map (fun r => r.2.map RepeatDiagnostic.count)

/-! ## The commands -/

/-- 40_setup.md rule R90: CFG is accepted once, in any `FSTATE`; every later CFG is `ConfigLocked` and changes nothing. -/
def Obligations.CfgIsAcceptedOnce : Prop :=
  ∀ (fmt : SampleFormat) (out mon : Channel) (s : State),
    (∃ b : Byte, encode (.cfg fmt out mon) = [b] ∧ b.extractLsb' 3 5 = 0b00010#5 ∧
      b.getLsbD 2 = (mon == .right) ∧ b.getLsbD 1 = (out == .right) ∧ b.getLsbD 0 = (fmt == .int32Stereo)) ∧
    (s.cfg.cvalid = false → exec (.cfg fmt out mon) s =
      .next { s with cfg := { fmt := fmt, out := out, mon := mon, cvalid := true }, events := s.events ++ [.rsp .ok] }) ∧
    (s.cfg.cvalid = true → exec (.cfg fmt out mon) s =
      .next { s with events := s.events ++ [.rsp .configLocked] })

/-- 42_forwarder.md rule R131: DEST stores the resolved destination once; a failed parse leaves `Unconfigured`. -/
def Obligations.DestStoresTheResolvedDestination : Prop :=
  ∀ (text : List Byte) (port : BitVec 16) (s : State),
    encode (.dest text port) = [0x20, port.extractLsb' 0 8, port.extractLsb' 8 8] ++ text ∧
    (s.fstate ≠ .unconfigured → exec (.dest text port) s = .next { s with events := s.events ++ [.rsp .invalidState] }) ∧
    (s.fstate = .unconfigured → s.parseAddr text = none → exec (.dest text port) s =
      .next { s with events := s.events ++ [.log .error .addressUnparsable, .rsp .addressError] }) ∧
    (∀ a, s.fstate = .unconfigured → s.parseAddr text = some a → exec (.dest text port) s =
      .next { s with
        dest := { family := a.family, addr := a.addr, port := port }
        fstate := .configured
        events := s.events ++ [.rsp .ok] })

/-- 42_forwarder.md rule R132: OPEN creates one socket, tries address reuse without insisting, and sets non-blocking
mode; a failed creation or a failed non-blocking step is `SocketError` and `Failed`; elsewhere it is rejected. -/
def Obligations.OpenCreatesTheSocket : Prop :=
  ∀ s : State,
    encode .openSocket = [0x30] ∧
    (s.fstate ≠ .configured → exec .openSocket s = .next { s with events := s.events ++ [.rsp .invalidState] }) ∧
    (∀ code, s.fstate = .configured → createAnswer (s.upcoming 0) = .createErr code → exec .openSocket s =
      .next { s with
        fstate := .failed
        transport := s.transport.drop 1
        drawCount := s.drawCount + 1
        events := s.events ++
          [.request .create, .log .error (.socketCreateFailed code), .rsp (.socketError .create code)] }) ∧
    (∀ h warning, s.fstate = .configured → createAnswer (s.upcoming 0) = .createOk h →
      (optionAnswer (s.upcoming 1) = .ok ∧ warning = [] ∨
        ∃ code, optionAnswer (s.upcoming 1) = .err code ∧ warning = [.log .warning (.reuseFailed code)]) →
      (∀ code, optionAnswer (s.upcoming 2) = .err code → exec .openSocket s =
        .next { s with
          fstate := .failed
          sock := true
          handle := h
          transport := s.transport.drop 3
          drawCount := s.drawCount + 3
          events := s.events ++ [.request .create, .request (.setReuse h)] ++ warning ++
            [.request (.setNonBlock h), .log .error (.nonBlockFailed code), .rsp (.socketError .nonBlock code)] }) ∧
      (optionAnswer (s.upcoming 2) = .ok → exec .openSocket s =
        .next { s with
          fstate := .opened
          sock := true
          handle := h
          transport := s.transport.drop 3
          drawCount := s.drawCount + 3
          events := s.events ++ [.request .create, .request (.setReuse h)] ++ warning ++
            [.request (.setNonBlock h), .rsp .ok] }))

/-- 42_forwarder.md rule R134: SEND makes one `SendTo` with the serialised samples when `Open`, and reports the answer;
outside `Open` it is rejected with no request. No register changes. -/
def Obligations.SendMakesOneRequest : Prop :=
  ∀ (samples : List Int) (s : State),
    encode (.send samples) = 0x50 :: serialize .little samples ∧
    (s.fstate ≠ .opened → exec (.send samples) s = .next { s with events := s.events ++ [.rsp .invalidState] }) ∧
    (s.fstate = .opened →
      let p := serialize s.ord samples
      let ask : Event := .request (.sendTo s.handle s.dest p)
      let after (es : List Event) : State :=
        { s with transport := s.transport.drop 1, drawCount := s.drawCount + 1, events := s.events ++ ask :: es }
      (∀ code, sendAnswer (s.upcoming 0) p.length = .err code → exec (.send samples) s =
        .next (after [.log .warning (.sendFailed code), .rsp (.sendError (.transport code))])) ∧
      (∀ n, sendAnswer (s.upcoming 0) p.length = .sent n → n ≠ p.length → exec (.send samples) s =
        .next (after [.log .warning (.sendPartial n p.length), .rsp (.sendError (.short n p.length))])) ∧
      (sendAnswer (s.upcoming 0) p.length = .sent p.length → exec (.send samples) s = .next (after [.rsp .ok])))

/-- 42_forwarder.md rule R135: CLOSE never fails; it releases a held socket, and moves to `Closed` unless `Failed`. -/
def Obligations.CloseReleasesAHeldSocket : Prop :=
  ∀ s : State,
    encode .close = [0x70] ∧
    (s.sock = true → exec .close s =
      .next { s with
        sock := false
        fstate := if s.fstate = .failed then .failed else .closed
        events := s.events ++ [.request (.release s.handle), .rsp .ok] }) ∧
    (s.sock = false → exec .close s =
      .next { s with
        fstate := if s.fstate = .failed then .failed else .closed
        events := s.events ++ [.rsp .ok] })

/-- 41_converter.md rule R108: CONVERT delivers the mono sequence after the `Repeat` log events of its runs; the two
checks come first, `NotConfigured` before the length. It touches nothing but the event output. -/
def Obligations.ConvertDeliversMonoAndDiagnostics : Prop :=
  ∀ (raw : List Byte) (s : State),
    encode (.convert raw) = 0x40 :: raw ∧
    (s.cfg.cvalid = false → exec (.convert raw) s = .next { s with events := s.events ++ [.rsp .notConfigured] }) ∧
    (s.cfg.cvalid = true → raw.length % frameSize s.cfg.fmt ≠ 0 → exec (.convert raw) s =
      .next { s with events := s.events ++
        [.log .warning (.malformed (frameSize s.cfg.fmt) raw.length),
          .rsp (.malformedBufferError (frameSize s.cfg.fmt) raw.length)] }) ∧
    (∀ rs, s.cfg.cvalid = true → raw.length % frameSize s.cfg.fmt = 0 →
      MaximalRuns rs (channelValues s.ord s.cfg.fmt raw s.cfg.mon) → exec (.convert raw) s =
        .next { s with events := s.events ++ repeatLogs (reported rs) ++ [.mono (monoOf s.ord s.cfg raw), .rsp .ok] })

/-- 43_pipeline.md rule R160: FRAME checks, converts and logs as CONVERT does, then sends the mono sequence as one
datagram if the forwarder is `Open`, and is rejected with no request if it is not. No register changes. -/
def Obligations.FrameConvertsThenSends : Prop :=
  ∀ (raw : List Byte) (s : State),
    encode (.frame raw) = 0x60 :: raw ∧
    (s.cfg.cvalid = false → exec (.frame raw) s = .next { s with events := s.events ++ [.rsp .notConfigured] }) ∧
    (s.cfg.cvalid = true → raw.length % frameSize s.cfg.fmt ≠ 0 → exec (.frame raw) s =
      .next { s with events := s.events ++
        [.log .warning (.malformed (frameSize s.cfg.fmt) raw.length),
          .rsp (.malformedBufferError (frameSize s.cfg.fmt) raw.length)] }) ∧
    (∀ rs, s.cfg.cvalid = true → raw.length % frameSize s.cfg.fmt = 0 →
      MaximalRuns rs (channelValues s.ord s.cfg.fmt raw s.cfg.mon) →
      let logs := repeatLogs (reported rs)
      let p := serialize s.ord (monoOf s.ord s.cfg raw)
      let ask : Event := .request (.sendTo s.handle s.dest p)
      let after (es : List Event) : State :=
        { s with transport := s.transport.drop 1, drawCount := s.drawCount + 1, events := s.events ++ logs ++ ask :: es }
      p.length = 2 * numFrames s.cfg.fmt raw ∧
      (s.fstate ≠ .opened → exec (.frame raw) s =
        .next { s with events := s.events ++ logs ++ [.rsp .invalidState] }) ∧
      (∀ code, s.fstate = .opened → sendAnswer (s.upcoming 0) p.length = .err code → exec (.frame raw) s =
        .next (after [.log .warning (.sendFailed code), .rsp (.sendError (.transport code))])) ∧
      (∀ n, s.fstate = .opened → sendAnswer (s.upcoming 0) p.length = .sent n → n ≠ p.length → exec (.frame raw) s =
        .next (after [.log .warning (.sendPartial n p.length), .rsp (.sendError (.short n p.length))])) ∧
      (s.fstate = .opened → sendAnswer (s.upcoming 0) p.length = .sent p.length → exec (.frame raw) s =
        .next (after [.rsp .ok])))

/-! ## The step -/

/-- 00_scope.md rule R6, 30_encoding.md rule R73: a step runs the command that the next packet decodes to, with the packet
taken from the input; and `withFetchWord` delivers the packet it is given (the model's choice, log entry 7). -/
def Obligations.StepRunsTheDecodedCommand : Prop :=
  (∀ (s : State) (p : List Byte) (rest : List HostInput) (i : Instr),
    s.inputs = .packet p :: rest → decode p = .ok i → step s = exec i { s with inputs := rest }) ∧
  ∀ (s : State) (nbits w : Nat) (i : Instr), decodeTableWord nbits w = some i → step (s.withFetchWord nbits w) = exec i s

/-- 60_exceptions.md rule R187 ("between commands the block is idle and keeps all persistent state"). That a step with
nothing delivered exists, and answers the same whole state, is the model's choice (log entry 10, DESIGN CHOICE). -/
def Obligations.IdleStepKeepsTheState : Prop :=
  ∀ s : State, s.inputs = [] → step s = .next s

/-- 70_reset_and_hazards.md rules R200, R201: reset puts `CVALID`, `FSTATE` and `SOCK` at their reset values from every
state and samples the strap, with no event and no request (so no `Release` of a held socket). That what waits on the
interfaces stays is the model's reading (log entry 8). -/
def Obligations.ResetInputRestoresTheBlock : Prop :=
  ∀ (s : State) (strap : ByteOrder) (rest : List HostInput), s.inputs = .reset strap :: rest →
    ∃ t, step s = .next t ∧ t.cfg.cvalid = false ∧ t.fstate = .unconfigured ∧ t.sock = false ∧ t.ord = strap ∧
      t.inputs = rest ∧ t.events = s.events ∧ t.transport = s.transport ∧ t.drawCount = s.drawCount ∧
      t.resolver = s.resolver

/-- 10_state.md rule R32 (the elements it gives a value) and 00_scope.md rule R8 (`ORD` is `Little` on this hardware). -/
def Obligations.ResetValuesAreThoseOfTheTable : Prop :=
  State.reset.cfg.cvalid = false ∧ State.reset.fstate = .unconfigured ∧ State.reset.sock = false ∧
    State.reset.ord = .little

/-- 60_exceptions.md rules R170 (its first sentence) and R179: every command, in every state, completes; it appends to the
event output and ends with exactly one response, which the log event of its status, if it has one, precedes. -/
def Obligations.EveryCommandEndsWithOneResponse : Prop :=
  ∀ (i : Instr) (s : State), ∃ t es x,
    exec i s = .next t ∧ t.events = s.events ++ es ++ (x.logKind.map logOf).toList ++ [.rsp x] ∧
      ∀ e ∈ es, e.isRsp = false

/-- 00_scope.md rule R6, 30_encoding.md rule R74 ("The decoder is total on any byte sequence"), 20_memory.md rule R41: no
input, in any state, stops the machine: there is no fault and no refusal, and no load outside the buffer. -/
def Obligations.NoStepStops : Prop :=
  ∀ s : State, ∃ t, step s = .next t

/-- 60_exceptions.md rule R179 (errors are precise): a command that reports one of these statuses has had no effect but
its own events. FRAME's `InvalidState`, which the rule excepts, adds `Repeat` log events only. -/
def Obligations.RejectedCommandsChangeNothing : Prop :=
  ∀ (i : Instr) (s t : State) (es : List Event) (x : Status),
    exec i s = .next t → t.events = s.events ++ es ++ [.rsp x] →
      ((∃ m n, x = .malformedBufferError m n) ∨ x = .addressError ∨ x = .invalidState ∨ x = .notConfigured ∨
        x = .configLocked) →
        t = { s with events := t.events } ∧
        (x = .addressError → es = [.log .error .addressUnparsable]) ∧
        (∀ m n, x = .malformedBufferError m n → es = [.log .warning (.malformed m n)]) ∧
        (x = .notConfigured ∨ x = .configLocked → es = []) ∧
        (x = .invalidState → (∀ raw, i ≠ .frame raw) → es = []) ∧
        (x = .invalidState → ∃ ds, es = repeatLogs ds)

/-- 10_state.md rules R20 to R24, R28, R29: each register is written only by the commands its rule names, and no command
changes the parameters or the input. -/
def Obligations.OnlyTheNamedCommandsWriteARegister : Prop :=
  ∀ (i : Instr) (s t : State), exec i s = .next t →
    (t.cfg ≠ s.cfg → ∃ fmt out mon, i = .cfg fmt out mon) ∧
    (t.fstate ≠ s.fstate → (∃ text port, i = .dest text port) ∨ i = .openSocket ∨ i = .close) ∧
    (t.sock ≠ s.sock → i = .openSocket ∨ i = .close) ∧
    (t.handle ≠ s.handle → i = .openSocket) ∧
    (t.dest ≠ s.dest → ∃ text port, i = .dest text port) ∧
    t.ord = s.ord ∧ t.inputs = s.inputs ∧ t.resolver = s.resolver

/-! ## Rules of the whole machine -/

/-- 10_state.md rule R31 (a), (b): the invariant holds after reset. -/
def Obligations.InvariantHoldsAtReset : Prop := State.reset.Inv

/-- 10_state.md rule R31 (a), (b): every step keeps the invariant, from every state that meets it. -/
def Obligations.InvariantIsKeptByEveryStep : Prop :=
  ∀ s t : State, s.Inv → step s = .next t → t.Inv

/-- 42_forwarder.md rule R130, 10_state.md rule R31 (d): without reset the forwarder moves only along its state machine, and
`Failed` is entered from `Configured` alone (90_conflicts.md C5). -/
def Obligations.ForwarderMovesAlongItsStateMachine : Prop :=
  ∀ s t : State, (∀ strap rest, s.inputs ≠ .reset strap :: rest) → step s = .next t →
    t.fstate ∈ s.fstate.successors ∧ (t.fstate = .failed → s.fstate = .failed ∨ s.fstate = .configured) ∧
      (s.fstate = .failed ∨ s.fstate = .closed → t.fstate = s.fstate)

/-- 10_state.md rule R33: once `CVALID = 1` no operation changes `FMT`, `OUT` or `MON` (nor `CVALID`, rule R31 (e)); once a
DEST succeeded (then `FSTATE` has left `Unconfigured`) no operation changes `DEST`; only reset lifts either lock. -/
def Obligations.ConfigurationIsImmutableAfterSetUp : Prop :=
  ∀ s t : State, step s = .next t →
    ((∀ strap rest, s.inputs ≠ .reset strap :: rest) →
      (s.cfg.cvalid = true → t.cfg = s.cfg) ∧
      (s.fstate ≠ .unconfigured → t.dest = s.dest ∧ t.fstate ≠ .unconfigured)) ∧
    (∀ strap rest, s.inputs = .reset strap :: rest → t.cfg.cvalid = false ∧ t.fstate = .unconfigured)

/-- 43_pipeline.md rule R161, first sentence: FRAME makes exactly one `SendTo` request, whose payload is that buffer's
output, when `CVALID = 1`, the length check passes and `FSTATE = Open`, and no request otherwise. -/
def Obligations.OneBufferMakesAtMostOneDatagram : Prop :=
  ∀ (raw : List Byte) (s : State), ∃ t, exec (.frame raw) s = .next t ∧
    requestsIn (s.newEvents t) =
      if s.cfg.cvalid = true ∧ raw.length % frameSize s.cfg.fmt = 0 ∧ s.fstate = .opened then
        [.sendTo s.handle s.dest (serialize s.ord (monoOf s.ord s.cfg raw))]
      else []

/-- 43_pipeline.md rule R161 (nothing carried over), 70_reset_and_hazards.md rule R207: what a CONVERT or FRAME emits after
an earlier CONVERT or FRAME is what it emits without it, for the same answer of the transport. -/
def Obligations.NothingIsCarriedFromBufferToBuffer : Prop :=
  ∀ (a b : Instr) (s t u : State),
    ((∃ raw, a = .frame raw) ∨ ∃ raw, a = .convert raw) → ((∃ raw, b = .frame raw) ∨ ∃ raw, b = .convert raw) →
    exec a s = .next t → exec b t = .next u →
      ∃ v, exec b { s with transport := t.transport, drawCount := t.drawCount } = .next v ∧
        s.newEvents v = t.newEvents u

/-- 10_state.md rules R21, R23, R24, R32: a register that reset leaves unspecified is not read before it is written. Two
states that differ in such a register alone stay so, with the same events, until the register is written. -/
def Obligations.UnwrittenRegistersAreNeverRead : Prop :=
  ∀ (i : Instr) (s t : State), s.Inv → exec i s = .next t →
    (s.cfg.cvalid = false → ∀ f o m,
      exec i { s with cfg := { fmt := f, out := o, mon := m, cvalid := false } } =
        .next (if t.cfg.cvalid then t else { t with cfg := { fmt := f, out := o, mon := m, cvalid := false } })) ∧
    (s.sock = false → ∀ h, exec i { s with handle := h } = .next (if t.sock then t else { t with handle := h })) ∧
    (s.fstate = .unconfigured → ∀ d,
      exec i { s with dest := d } = .next (if t.fstate = .configured then t else { t with dest := d }))

/-- 42_forwarder.md rules R136, R137: each answered request takes one answer of the transport and no command retries: OPEN
makes at most three requests in a fixed order, SEND and FRAME at most one, CLOSE at most a release. -/
def Obligations.EveryRequestIsMadeOnce : Prop :=
  ∀ (i : Instr) (s t : State), exec i s = .next t →
    t.drawCount = s.drawCount + (requestsIn (s.newEvents t)).countP TransportRequest.answered ∧
    t.transport = s.transport.drop ((requestsIn (s.newEvents t)).countP TransportRequest.answered) ∧
    match i with
    | .cfg _ _ _ | .dest _ _ | .convert _ => requestsIn (s.newEvents t) = []
    | .openSocket => requestsIn (s.newEvents t) <+: [.create, .setReuse t.handle, .setNonBlock t.handle]
    | .send _ | .frame _ => requestsIn (s.newEvents t) = [] ∨ ∃ p, requestsIn (s.newEvents t) = [.sendTo s.handle s.dest p]
    | .close => requestsIn (s.newEvents t) = if s.sock then [.release s.handle] else []

/-- 42_forwarder.md rule R136 (the table's answers), log entry 1: the draws stand for exactly the answers that the table
allows. -/
def Obligations.DrawsStandForTheAllowedAnswers : Prop :=
  (∀ a : CreateAnswer, ∃ d, createAnswer d = a) ∧ (∀ a : OptionAnswer, ∃ d, optionAnswer d = a) ∧
  ∀ (len : Nat) (a : SendAnswer), (∃ d, sendAnswer d len = a) ↔ ∀ n, a = .sent n → n ≤ len

/-- After 10_state.md rule R23 ("`SOCK` goes from 0 to 1 at most once between two resets", an inference the spec marks as
its own) and 42_forwarder.md rule R135 (`SOCK` is cleared with each `Release`), as counts: along any run with no reset, from
every state that meets the invariant, there is at most one `Create` request, and the `Release` requests plus the final
`SOCK` are at most the initial `SOCK` plus the `Create` requests. Handles are not compared. -/
def Obligations.TheSocketIsNeverRecreated : Prop :=
  ∀ (n : Nat) (s t : State), s.Inv → (∀ strap, .reset strap ∉ s.inputs) → core.run n s = .next t →
    createsIn (s.newEvents t) ≤ 1 ∧
    (requestsIn (s.newEvents t)).countP (fun r => !r.answered) + t.sock.toNat ≤
      s.sock.toNat + createsIn (s.newEvents t)

/-- 70_reset_and_hazards.md rule R202: after CFG, a DEST that parses and an OPEN whose three requests succeed, a FRAME of
whole frames converts and sends. -/
def Obligations.SetUpMakesFramesSend : Prop :=
  ∀ (s : State) (fmt : SampleFormat) (out mon : Channel) (text : List Byte) (port : BitVec 16) (a : Resolved) (h : Handle)
    (raw : List Byte),
    s.cfg.cvalid = false → s.fstate = .unconfigured → s.parseAddr text = some a →
    createAnswer (s.upcoming 0) = .createOk h → optionAnswer (s.upcoming 1) = .ok → optionAnswer (s.upcoming 2) = .ok →
    raw.length % frameSize fmt = 0 →
    s.inputs = [.packet (encode (.cfg fmt out mon)), .packet (encode (.dest text port)), .packet (encode .openSocket),
      .packet (encode (.frame raw))] →
    ∃ t, core.run 4 s = .next t ∧ t.fstate = .opened ∧ t.inputs = [] ∧
      requestsIn (s.newEvents t) =
        [.create, .setReuse h, .setNonBlock h,
          .sendTo h { family := a.family, addr := a.addr, port := port }
            (serialize s.ord (monoOf s.ord { fmt := fmt, out := out, mon := mon, cvalid := true } raw))]

/-- 10_state.md rules R21, R22, 60_exceptions.md rules R170, R176: the numeric codes and the severities of the tables. -/
def Obligations.CodesAreThoseOfTheTables : Prop :=
  (∀ c : CfgReg, c.bits.getLsbD 0 = (c.fmt == .int32Stereo) ∧ c.bits.getLsbD 1 = (c.out == .right) ∧
    c.bits.getLsbD 2 = (c.mon == .right) ∧ c.bits.getLsbD 3 = c.cvalid) ∧
  [FState.unconfigured, .configured, .opened, .failed, .closed].map FState.code = [0, 1, 2, 3, 4] ∧
  (∀ (m n : Nat) (c : SocketCause) (e : Code) (k : SendFailure),
    [Status.ok, .malformedBufferError m n, .addressError, .socketError c e, .sendError k, .invalidState, .notConfigured,
      .configLocked, .illegalCommand].map Status.code = [0x00, 0x01, 0x02, 0x03, 0x04, 0x05, 0x06, 0x07, 0x08]) ∧
  (∀ (m n : Nat) (v : Int) (e : Code),
    [LogKind.malformed m n, .repeatRun v n, .reuseFailed e, .socketCreateFailed e, .nonBlockFailed e, .sendFailed e,
      .sendPartial m n, .addressUnparsable].map LogKind.code = [1, 2, 3, 4, 5, 6, 7, 8]) ∧
  (∀ k : LogKind, k.severity = .error ↔ (∃ e, k = .socketCreateFailed e) ∨ (∃ e, k = .nonBlockFailed e) ∨
    k = .addressUnparsable) ∧
  (∀ (e : Code) (m n : Nat), SendFailure.code (.transport e) = 0 ∧ SendFailure.code (.short m n) = 1) ∧
  SocketCause.create.code = 0 ∧ SocketCause.nonBlock.code = 1
end

