-- ==== Sys2Proof/Laws/Operands.lean ====
section
/-! SUPPORT. What the loads, the stores and the number helpers do, said once. -/

namespace Sys2Proof.Machine

/-- An encoded number fits its width. -/
theorem enc16_lt (x : Int) : enc 16 x < 65536 := by
  unfold enc; omega

/-- A two's-complement reading of a number that fits the width lies in the signed range. -/
theorem sext_range {n v : Nat} (hn : 0 < n) (hv : v < 2 ^ n) : -2 ^ (n - 1) ≤ sext n v ∧ sext n v < 2 ^ (n - 1) := by
  obtain ⟨m, rfl⟩ : ∃ m, n = m + 1 := ⟨n - 1, by omega⟩
  rw [pow_succ] at hv
  have h2 : (2 : Int) ^ (m + 1) = 2 * 2 ^ m := by rw [pow_succ, mul_comm]
  have hp : ((2 ^ m : Nat) : Int) = 2 ^ m := by push_cast; rfl
  unfold sext
  simp only [Nat.add_sub_cancel]
  split <;> omega

/-- Reading back an encoded sample. -/
theorem sext_enc16 {x : Int} (h : sampleInRange x = true) : sext 16 (enc 16 x) = x := by
  simp only [sampleInRange, decide_eq_true_eq] at h
  unfold sext enc
  split <;> omega

/-- Encoding a reading gives the number back. -/
theorem enc16_sext {u : Nat} (h : u < 65536) : enc 16 (sext 16 u) = u := by
  unfold sext enc
  split <;> omega

/-- A 16-bit reading is a sample. -/
theorem sampleInRange_sext16 {u : Nat} (h : u < 65536) : sampleInRange (sext 16 u) = true := by
  simp only [sampleInRange, decide_eq_true_eq]
  unfold sext
  split <;> omega

/-- The two packet bytes of a 16-bit number spell it. -/
theorem unpack16_bytes {u : Nat} (h : u < 65536) : unpack16 (BitVec.ofNat 8 u) (BitVec.ofNat 8 (u / 256)) = u := by
  simp only [unpack16, BitVec.toNat_ofNat]; omega

/-- Two packet bytes spell a number of 16 bits. -/
theorem unpack16_lt (lo hi : Byte) : unpack16 lo hi < 65536 := by
  simp only [unpack16]; omega

/-- The packet bytes of the number two bytes spell are those bytes. -/
theorem packet16_unpack16 (lo hi : Byte) : packet16 (unpack16 lo hi) = [lo, hi] := by
  simp only [packet16, unpack16, List.cons.injEq, and_true]
  constructor <;> (apply BitVec.eq_of_toNat_eq; simp only [BitVec.toNat_ofNat]; omega)

/-- A read inside the buffer gives bytes of the buffer (20_memory.md rule R41). -/
theorem memRead_of_le {raw : List Byte} {off n : Nat} (h : off + n ≤ raw.length) :
    memRead raw off n = some ((raw.drop off).take n) := if_pos h

/-- A read that leaves the buffer has no value (20_memory.md rule R41). -/
theorem memRead_of_lt {raw : List Byte} {off n : Nat} (h : raw.length < off + n) : memRead raw off n = none :=
  if_neg (by omega)

/-- The number that `n` bytes spell, lowest first, fits `8n` bits. -/
theorem uintLittle_lt (bs : List Byte) : uintLittle bs < 256 ^ bs.length := by
  induction bs with
  | nil => simp [uintLittle]
  | cons b bs ih =>
    have := b.isLt
    simp only [uintLittle, List.length_cons, pow_succ]; omega

/-- The number that `n` bytes spell, highest first, fits `8n` bits. -/
theorem uintBig_lt (bs : List Byte) : uintBig bs < 256 ^ bs.length := by
  induction bs with
  | nil => simp [uintBig]
  | cons b bs ih =>
    have hb : b.toNat + 1 ≤ 256 := b.isLt
    have := Nat.mul_le_mul_right (256 ^ bs.length) hb
    simp only [uintBig, List.length_cons, pow_succ]
    rw [Nat.add_mul] at this; omega

/-- The number that `n` bytes spell in order `ORD` fits `8n` bits. -/
theorem uintOrd_lt (ord : ByteOrder) (bs : List Byte) : uintOrd ord bs < 2 ^ (8 * bs.length) := by
  rw [pow_mul]
  cases ord
  · exact uintLittle_lt bs
  · exact uintBig_lt bs

/-- A frame has at least one byte, so there is no division by zero (41_converter.md rule R109 (e)). -/
theorem frameSize_eq (fmt : SampleFormat) : frameSize fmt = 2 * bytesPerSample fmt := rfl

/-- In a buffer that passes the length check every sample of every frame lies inside it. -/
theorem sampleOffset_le {fmt : SampleFormat} {raw : List Byte} (c : Channel) {i : Nat} (h : i < numFrames fmt raw) :
    sampleOffset fmt c i + bytesPerSample fmt ≤ raw.length := by
  have hd := Nat.div_mul_le_self raw.length (frameSize fmt)
  have hi := Nat.mul_le_mul_right (frameSize fmt) (Nat.succ_le_of_lt h)
  cases fmt <;> cases c <;>
    simp_all only [numFrames, sampleOffset, frameSize, channels, bytesPerSample, channelCode] <;> omega

/-- Every load of the scan is inside the buffer and gives the sample the frame layout names. -/
theorem chan_eq_sampleAt (ord : ByteOrder) {fmt : SampleFormat} {raw : List Byte} (c : Channel) {i : Nat}
    (h : i < numFrames fmt raw) : chan ord fmt raw c i = some (sampleAt ord fmt raw c i) := by
  unfold chan loadSample
  rw [memRead_of_le (sampleOffset_le c h)]
  rfl

/-- A stored sample is two bytes (20_memory.md rule R45). -/
@[simp] theorem storeSample_length (ord : ByteOrder) (x : Int) : (storeSample ord x).length = 2 := by cases ord <;> rfl

/-- The empty sequence serialises to nothing. -/
@[simp] theorem serialize_nil (ord : ByteOrder) : serialize ord [] = [] := rfl

/-- Samples are stored one after another. -/
@[simp] theorem serialize_cons (ord : ByteOrder) (x : Int) (xs : List Int) :
    serialize ord (x :: xs) = storeSample ord x ++ serialize ord xs := rfl

/-- The payload has two bytes for each sample (42_forwarder.md rule R133). -/
@[simp] theorem serialize_length (ord : ByteOrder) (xs : List Int) : (serialize ord xs).length = 2 * xs.length := by
  induction xs with
  | nil => rfl
  | cons x xs ih => simp only [serialize_cons, List.length_append, storeSample_length, ih, List.length_cons]; omega

end Sys2Proof.Machine
end

