-- ==== Sys2Proof/Laws/State.lean ====
section
/-! SUPPORT. One lemma for each field under each update of the state, and the small lemmas of the draws. -/

namespace Sys2Proof.Machine

@[simp] theorem State.writeCfg_cfg (s : State) (c : CfgReg) : (s.writeCfg c).cfg = c := rfl
@[simp] theorem State.writeCfg_fstate (s : State) (c : CfgReg) : (s.writeCfg c).fstate = s.fstate := rfl
@[simp] theorem State.writeCfg_sock (s : State) (c : CfgReg) : (s.writeCfg c).sock = s.sock := rfl
@[simp] theorem State.writeCfg_handle (s : State) (c : CfgReg) : (s.writeCfg c).handle = s.handle := rfl
@[simp] theorem State.writeCfg_dest (s : State) (c : CfgReg) : (s.writeCfg c).dest = s.dest := rfl
@[simp] theorem State.writeCfg_ord (s : State) (c : CfgReg) : (s.writeCfg c).ord = s.ord := rfl
@[simp] theorem State.writeCfg_inputs (s : State) (c : CfgReg) : (s.writeCfg c).inputs = s.inputs := rfl
@[simp] theorem State.writeCfg_events (s : State) (c : CfgReg) : (s.writeCfg c).events = s.events := rfl
@[simp] theorem State.writeCfg_transport (s : State) (c : CfgReg) : (s.writeCfg c).transport = s.transport := rfl
@[simp] theorem State.writeCfg_drawCount (s : State) (c : CfgReg) : (s.writeCfg c).drawCount = s.drawCount := rfl
@[simp] theorem State.writeCfg_resolver (s : State) (c : CfgReg) : (s.writeCfg c).resolver = s.resolver := rfl

@[simp] theorem State.writeDest_cfg (s : State) (d : Destination) : (s.writeDest d).cfg = s.cfg := rfl
@[simp] theorem State.writeDest_fstate (s : State) (d : Destination) : (s.writeDest d).fstate = s.fstate := rfl
@[simp] theorem State.writeDest_sock (s : State) (d : Destination) : (s.writeDest d).sock = s.sock := rfl
@[simp] theorem State.writeDest_handle (s : State) (d : Destination) : (s.writeDest d).handle = s.handle := rfl
@[simp] theorem State.writeDest_dest (s : State) (d : Destination) : (s.writeDest d).dest = d := rfl
@[simp] theorem State.writeDest_ord (s : State) (d : Destination) : (s.writeDest d).ord = s.ord := rfl
@[simp] theorem State.writeDest_inputs (s : State) (d : Destination) : (s.writeDest d).inputs = s.inputs := rfl
@[simp] theorem State.writeDest_events (s : State) (d : Destination) : (s.writeDest d).events = s.events := rfl
@[simp] theorem State.writeDest_transport (s : State) (d : Destination) : (s.writeDest d).transport = s.transport := rfl
@[simp] theorem State.writeDest_drawCount (s : State) (d : Destination) : (s.writeDest d).drawCount = s.drawCount := rfl
@[simp] theorem State.writeDest_resolver (s : State) (d : Destination) : (s.writeDest d).resolver = s.resolver := rfl

@[simp] theorem State.writeFState_cfg (s : State) (f : FState) : (s.writeFState f).cfg = s.cfg := rfl
@[simp] theorem State.writeFState_fstate (s : State) (f : FState) : (s.writeFState f).fstate = f := rfl
@[simp] theorem State.writeFState_sock (s : State) (f : FState) : (s.writeFState f).sock = s.sock := rfl
@[simp] theorem State.writeFState_handle (s : State) (f : FState) : (s.writeFState f).handle = s.handle := rfl
@[simp] theorem State.writeFState_dest (s : State) (f : FState) : (s.writeFState f).dest = s.dest := rfl
@[simp] theorem State.writeFState_ord (s : State) (f : FState) : (s.writeFState f).ord = s.ord := rfl
@[simp] theorem State.writeFState_inputs (s : State) (f : FState) : (s.writeFState f).inputs = s.inputs := rfl
@[simp] theorem State.writeFState_events (s : State) (f : FState) : (s.writeFState f).events = s.events := rfl
@[simp] theorem State.writeFState_transport (s : State) (f : FState) : (s.writeFState f).transport = s.transport := rfl
@[simp] theorem State.writeFState_drawCount (s : State) (f : FState) : (s.writeFState f).drawCount = s.drawCount := rfl
@[simp] theorem State.writeFState_resolver (s : State) (f : FState) : (s.writeFState f).resolver = s.resolver := rfl

@[simp] theorem State.holdSocket_cfg (s : State) (h : Handle) : (s.holdSocket h).cfg = s.cfg := rfl
@[simp] theorem State.holdSocket_fstate (s : State) (h : Handle) : (s.holdSocket h).fstate = s.fstate := rfl
@[simp] theorem State.holdSocket_sock (s : State) (h : Handle) : (s.holdSocket h).sock = true := rfl
@[simp] theorem State.holdSocket_handle (s : State) (h : Handle) : (s.holdSocket h).handle = h := rfl
@[simp] theorem State.holdSocket_dest (s : State) (h : Handle) : (s.holdSocket h).dest = s.dest := rfl
@[simp] theorem State.holdSocket_ord (s : State) (h : Handle) : (s.holdSocket h).ord = s.ord := rfl
@[simp] theorem State.holdSocket_inputs (s : State) (h : Handle) : (s.holdSocket h).inputs = s.inputs := rfl
@[simp] theorem State.holdSocket_events (s : State) (h : Handle) : (s.holdSocket h).events = s.events := rfl
@[simp] theorem State.holdSocket_transport (s : State) (h : Handle) : (s.holdSocket h).transport = s.transport := rfl
@[simp] theorem State.holdSocket_drawCount (s : State) (h : Handle) : (s.holdSocket h).drawCount = s.drawCount := rfl
@[simp] theorem State.holdSocket_resolver (s : State) (h : Handle) : (s.holdSocket h).resolver = s.resolver := rfl

@[simp] theorem State.dropSocket_cfg (s : State) : (s.dropSocket).cfg = s.cfg := rfl
@[simp] theorem State.dropSocket_fstate (s : State) : (s.dropSocket).fstate = s.fstate := rfl
@[simp] theorem State.dropSocket_sock (s : State) : (s.dropSocket).sock = false := rfl
@[simp] theorem State.dropSocket_handle (s : State) : (s.dropSocket).handle = s.handle := rfl
@[simp] theorem State.dropSocket_dest (s : State) : (s.dropSocket).dest = s.dest := rfl
@[simp] theorem State.dropSocket_ord (s : State) : (s.dropSocket).ord = s.ord := rfl
@[simp] theorem State.dropSocket_inputs (s : State) : (s.dropSocket).inputs = s.inputs := rfl
@[simp] theorem State.dropSocket_events (s : State) : (s.dropSocket).events = s.events := rfl
@[simp] theorem State.dropSocket_transport (s : State) : (s.dropSocket).transport = s.transport := rfl
@[simp] theorem State.dropSocket_drawCount (s : State) : (s.dropSocket).drawCount = s.drawCount := rfl
@[simp] theorem State.dropSocket_resolver (s : State) : (s.dropSocket).resolver = s.resolver := rfl

@[simp] theorem State.emit_cfg (s : State) (es : List Event) : (s.emit es).cfg = s.cfg := rfl
@[simp] theorem State.emit_fstate (s : State) (es : List Event) : (s.emit es).fstate = s.fstate := rfl
@[simp] theorem State.emit_sock (s : State) (es : List Event) : (s.emit es).sock = s.sock := rfl
@[simp] theorem State.emit_handle (s : State) (es : List Event) : (s.emit es).handle = s.handle := rfl
@[simp] theorem State.emit_dest (s : State) (es : List Event) : (s.emit es).dest = s.dest := rfl
@[simp] theorem State.emit_ord (s : State) (es : List Event) : (s.emit es).ord = s.ord := rfl
@[simp] theorem State.emit_inputs (s : State) (es : List Event) : (s.emit es).inputs = s.inputs := rfl
@[simp] theorem State.emit_events (s : State) (es : List Event) : (s.emit es).events = s.events ++ es := rfl
@[simp] theorem State.emit_transport (s : State) (es : List Event) : (s.emit es).transport = s.transport := rfl
@[simp] theorem State.emit_drawCount (s : State) (es : List Event) : (s.emit es).drawCount = s.drawCount := rfl
@[simp] theorem State.emit_resolver (s : State) (es : List Event) : (s.emit es).resolver = s.resolver := rfl

@[simp] theorem State.raise_cfg (s : State) (x : Status) : (s.raise x).cfg = s.cfg := rfl
@[simp] theorem State.raise_fstate (s : State) (x : Status) : (s.raise x).fstate = s.fstate := rfl
@[simp] theorem State.raise_sock (s : State) (x : Status) : (s.raise x).sock = s.sock := rfl
@[simp] theorem State.raise_handle (s : State) (x : Status) : (s.raise x).handle = s.handle := rfl
@[simp] theorem State.raise_dest (s : State) (x : Status) : (s.raise x).dest = s.dest := rfl
@[simp] theorem State.raise_ord (s : State) (x : Status) : (s.raise x).ord = s.ord := rfl
@[simp] theorem State.raise_inputs (s : State) (x : Status) : (s.raise x).inputs = s.inputs := rfl
@[simp] theorem State.raise_events (s : State) (x : Status) : (s.raise x).events = s.events ++ errorEvents x := rfl
@[simp] theorem State.raise_transport (s : State) (x : Status) : (s.raise x).transport = s.transport := rfl
@[simp] theorem State.raise_drawCount (s : State) (x : Status) : (s.raise x).drawCount = s.drawCount := rfl
@[simp] theorem State.raise_resolver (s : State) (x : Status) : (s.raise x).resolver = s.resolver := rfl

@[simp] theorem State.finish_cfg (s : State) : (s.finish).cfg = s.cfg := rfl
@[simp] theorem State.finish_fstate (s : State) : (s.finish).fstate = s.fstate := rfl
@[simp] theorem State.finish_sock (s : State) : (s.finish).sock = s.sock := rfl
@[simp] theorem State.finish_handle (s : State) : (s.finish).handle = s.handle := rfl
@[simp] theorem State.finish_dest (s : State) : (s.finish).dest = s.dest := rfl
@[simp] theorem State.finish_ord (s : State) : (s.finish).ord = s.ord := rfl
@[simp] theorem State.finish_inputs (s : State) : (s.finish).inputs = s.inputs := rfl
@[simp] theorem State.finish_events (s : State) : (s.finish).events = s.events ++ [.rsp .ok] := rfl
@[simp] theorem State.finish_transport (s : State) : (s.finish).transport = s.transport := rfl
@[simp] theorem State.finish_drawCount (s : State) : (s.finish).drawCount = s.drawCount := rfl
@[simp] theorem State.finish_resolver (s : State) : (s.finish).resolver = s.resolver := rfl

@[simp] theorem State.rejectPacket_cfg (s : State) (why : Illegal) : (s.rejectPacket why).cfg = s.cfg := rfl
@[simp] theorem State.rejectPacket_fstate (s : State) (why : Illegal) : (s.rejectPacket why).fstate = s.fstate := rfl
@[simp] theorem State.rejectPacket_sock (s : State) (why : Illegal) : (s.rejectPacket why).sock = s.sock := rfl
@[simp] theorem State.rejectPacket_handle (s : State) (why : Illegal) : (s.rejectPacket why).handle = s.handle := rfl
@[simp] theorem State.rejectPacket_dest (s : State) (why : Illegal) : (s.rejectPacket why).dest = s.dest := rfl
@[simp] theorem State.rejectPacket_ord (s : State) (why : Illegal) : (s.rejectPacket why).ord = s.ord := rfl
@[simp] theorem State.rejectPacket_inputs (s : State) (why : Illegal) : (s.rejectPacket why).inputs = s.inputs := rfl
@[simp] theorem State.rejectPacket_events (s : State) (why : Illegal) : (s.rejectPacket why).events = s.events ++ [.rsp .illegalCommand] := rfl
@[simp] theorem State.rejectPacket_transport (s : State) (why : Illegal) : (s.rejectPacket why).transport = s.transport := rfl
@[simp] theorem State.rejectPacket_drawCount (s : State) (why : Illegal) : (s.rejectPacket why).drawCount = s.drawCount := rfl
@[simp] theorem State.rejectPacket_resolver (s : State) (why : Illegal) : (s.rejectPacket why).resolver = s.resolver := rfl

@[simp] theorem State.afterDraw_cfg (s : State) : (s.afterDraw).cfg = s.cfg := rfl
@[simp] theorem State.afterDraw_fstate (s : State) : (s.afterDraw).fstate = s.fstate := rfl
@[simp] theorem State.afterDraw_sock (s : State) : (s.afterDraw).sock = s.sock := rfl
@[simp] theorem State.afterDraw_handle (s : State) : (s.afterDraw).handle = s.handle := rfl
@[simp] theorem State.afterDraw_dest (s : State) : (s.afterDraw).dest = s.dest := rfl
@[simp] theorem State.afterDraw_ord (s : State) : (s.afterDraw).ord = s.ord := rfl
@[simp] theorem State.afterDraw_inputs (s : State) : (s.afterDraw).inputs = s.inputs := rfl
@[simp] theorem State.afterDraw_events (s : State) : (s.afterDraw).events = s.events := rfl
@[simp] theorem State.afterDraw_transport (s : State) : (s.afterDraw).transport = s.transport.tail := rfl
@[simp] theorem State.afterDraw_drawCount (s : State) : (s.afterDraw).drawCount = s.drawCount + 1 := rfl
@[simp] theorem State.afterDraw_resolver (s : State) : (s.afterDraw).resolver = s.resolver := rfl

@[simp] theorem State.asked_cfg (s : State) (r : TransportRequest) : (s.asked r).cfg = s.cfg := rfl
@[simp] theorem State.asked_fstate (s : State) (r : TransportRequest) : (s.asked r).fstate = s.fstate := rfl
@[simp] theorem State.asked_sock (s : State) (r : TransportRequest) : (s.asked r).sock = s.sock := rfl
@[simp] theorem State.asked_handle (s : State) (r : TransportRequest) : (s.asked r).handle = s.handle := rfl
@[simp] theorem State.asked_dest (s : State) (r : TransportRequest) : (s.asked r).dest = s.dest := rfl
@[simp] theorem State.asked_ord (s : State) (r : TransportRequest) : (s.asked r).ord = s.ord := rfl
@[simp] theorem State.asked_inputs (s : State) (r : TransportRequest) : (s.asked r).inputs = s.inputs := rfl
@[simp] theorem State.asked_events (s : State) (r : TransportRequest) : (s.asked r).events = s.events ++ [.request r] := rfl
@[simp] theorem State.asked_transport (s : State) (r : TransportRequest) : (s.asked r).transport = s.transport.tail := rfl
@[simp] theorem State.asked_drawCount (s : State) (r : TransportRequest) : (s.asked r).drawCount = s.drawCount + 1 := rfl
@[simp] theorem State.asked_resolver (s : State) (r : TransportRequest) : (s.asked r).resolver = s.resolver := rfl

@[simp] theorem State.resetBlock_cfg (s : State) (strap : ByteOrder) : (s.resetBlock strap).cfg = State.reset.cfg := rfl
@[simp] theorem State.resetBlock_fstate (s : State) (strap : ByteOrder) : (s.resetBlock strap).fstate = .unconfigured := rfl
@[simp] theorem State.resetBlock_sock (s : State) (strap : ByteOrder) : (s.resetBlock strap).sock = false := rfl
@[simp] theorem State.resetBlock_handle (s : State) (strap : ByteOrder) : (s.resetBlock strap).handle = State.reset.handle := rfl
@[simp] theorem State.resetBlock_dest (s : State) (strap : ByteOrder) : (s.resetBlock strap).dest = State.reset.dest := rfl
@[simp] theorem State.resetBlock_ord (s : State) (strap : ByteOrder) : (s.resetBlock strap).ord = strap := rfl
@[simp] theorem State.resetBlock_inputs (s : State) (strap : ByteOrder) : (s.resetBlock strap).inputs = s.inputs := rfl
@[simp] theorem State.resetBlock_events (s : State) (strap : ByteOrder) : (s.resetBlock strap).events = s.events := rfl
@[simp] theorem State.resetBlock_transport (s : State) (strap : ByteOrder) : (s.resetBlock strap).transport = s.transport := rfl
@[simp] theorem State.resetBlock_drawCount (s : State) (strap : ByteOrder) : (s.resetBlock strap).drawCount = s.drawCount := rfl
@[simp] theorem State.resetBlock_resolver (s : State) (strap : ByteOrder) : (s.resetBlock strap).resolver = s.resolver := rfl

@[simp] theorem State.takeInput_cfg (s : State) : (s.takeInput).cfg = s.cfg := rfl
@[simp] theorem State.takeInput_fstate (s : State) : (s.takeInput).fstate = s.fstate := rfl
@[simp] theorem State.takeInput_sock (s : State) : (s.takeInput).sock = s.sock := rfl
@[simp] theorem State.takeInput_handle (s : State) : (s.takeInput).handle = s.handle := rfl
@[simp] theorem State.takeInput_dest (s : State) : (s.takeInput).dest = s.dest := rfl
@[simp] theorem State.takeInput_ord (s : State) : (s.takeInput).ord = s.ord := rfl
@[simp] theorem State.takeInput_inputs (s : State) : (s.takeInput).inputs = s.inputs.tail := rfl
@[simp] theorem State.takeInput_events (s : State) : (s.takeInput).events = s.events := rfl
@[simp] theorem State.takeInput_transport (s : State) : (s.takeInput).transport = s.transport := rfl
@[simp] theorem State.takeInput_drawCount (s : State) : (s.takeInput).drawCount = s.drawCount := rfl
@[simp] theorem State.takeInput_resolver (s : State) : (s.takeInput).resolver = s.resolver := rfl

@[simp] theorem State.placePacket_cfg (s : State) (p : List Byte) : (s.placePacket p).cfg = s.cfg := rfl
@[simp] theorem State.placePacket_fstate (s : State) (p : List Byte) : (s.placePacket p).fstate = s.fstate := rfl
@[simp] theorem State.placePacket_sock (s : State) (p : List Byte) : (s.placePacket p).sock = s.sock := rfl
@[simp] theorem State.placePacket_handle (s : State) (p : List Byte) : (s.placePacket p).handle = s.handle := rfl
@[simp] theorem State.placePacket_dest (s : State) (p : List Byte) : (s.placePacket p).dest = s.dest := rfl
@[simp] theorem State.placePacket_ord (s : State) (p : List Byte) : (s.placePacket p).ord = s.ord := rfl
@[simp] theorem State.placePacket_inputs (s : State) (p : List Byte) : (s.placePacket p).inputs = .packet p :: s.inputs := rfl
@[simp] theorem State.placePacket_events (s : State) (p : List Byte) : (s.placePacket p).events = s.events := rfl
@[simp] theorem State.placePacket_transport (s : State) (p : List Byte) : (s.placePacket p).transport = s.transport := rfl
@[simp] theorem State.placePacket_drawCount (s : State) (p : List Byte) : (s.placePacket p).drawCount = s.drawCount := rfl
@[simp] theorem State.placePacket_resolver (s : State) (p : List Byte) : (s.placePacket p).resolver = s.resolver := rfl

/-- Nothing emitted, nothing changed. -/
@[simp] theorem State.emit_nil (s : State) : s.emit [] = s := by simp [State.emit]

/-- Emitting twice is emitting once. -/
@[simp] theorem State.emit_emit (s : State) (es fs : List Event) : (s.emit es).emit fs = s.emit (es ++ fs) := by
  simp [State.emit]

/-- The next draw is the draw number 0 from now. -/
theorem State.nextDraw_eq_upcoming (s : State) : s.nextDraw = s.upcoming 0 := by
  simp [State.nextDraw, State.upcoming, List.head?_eq_getElem?]

/-- Once a draw is taken, the coming draws move up by one. -/
theorem State.upcoming_of_afterDraw {s t : State} (ht : t.transport = s.transport.tail)
    (hc : t.drawCount = s.drawCount + 1) (k : Nat) : t.upcoming k = s.upcoming (k + 1) := by
  simp [State.upcoming, ht, hc, Nat.add_assoc, Nat.add_comm 1 k]

/-- The draws seen after a request are the later ones. -/
@[simp] theorem State.asked_upcoming (s : State) (r : TransportRequest) (k : Nat) :
    (s.asked r).upcoming k = s.upcoming (k + 1) := State.upcoming_of_afterDraw rfl rfl k

/-- A log event does not touch the draws. -/
@[simp] theorem State.emit_upcoming (s : State) (es : List Event) (k : Nat) :
    (s.emit es).upcoming k = s.upcoming k := rfl

/-- Taking the socket does not touch the draws. -/
@[simp] theorem State.holdSocket_upcoming (s : State) (h : Handle) (k : Nat) :
    (s.holdSocket h).upcoming k = s.upcoming k := rfl

end Sys2Proof.Machine
end

