-- ==== Sys2Proof/Laws/Converter.lean ====
section
/-! SUPPORT. The one-pass loop computes the output and the diagnostics each on its own channel's values, and the
converter half that CONVERT and FRAME share has three outcomes, none of them a fault. -/

namespace Sys2Proof.Machine

/-- What the repeat scan still reports, with the current run and the monitored values that are left. -/
def scanFrom : Option RepeatRun → List Int → List RepeatDiagnostic
  | r, [] => (r.map closeRun).getD []
  | none, v :: vs => scanFrom (some { last := v, run := 1 }) vs
  | some r, v :: vs =>
    if v = r.last then scanFrom (some { r with run := r.run + 1 }) vs
    else closeRun r ++ scanFrom (some { last := v, run := 1 }) vs

/-- The values of the frames from `i` on, `k` of them. -/
def valuesFrom (ord : ByteOrder) (fmt : SampleFormat) (raw : List Byte) (c : Channel) (i k : Nat) : List Int :=
  (List.range' i k).map (sampleAt ord fmt raw c)

/-- The values of all frames are the values from frame 0 on. -/
theorem channelValues_eq_valuesFrom (ord : ByteOrder) (fmt : SampleFormat) (raw : List Byte) (c : Channel) :
    channelValues ord fmt raw c = valuesFrom ord fmt raw c 0 (numFrames fmt raw) := by
  simp [channelValues, valuesFrom, List.range_eq_range']

/-- The values from frame `i` on begin with frame `i`'s. -/
theorem valuesFrom_succ (ord : ByteOrder) (fmt : SampleFormat) (raw : List Byte) (c : Channel) (i k : Nat) :
    valuesFrom ord fmt raw c i (k + 1) = sampleAt ord fmt raw c i :: valuesFrom ord fmt raw c (i + 1) k := by
  simp [valuesFrom, List.range'_succ]

/-- One iteration advances the frame index by exactly 1 (10_state.md rule R27). -/
@[simp] theorem frameStep_idx (fmt : SampleFormat) (o m : Int) (r : ScanRegs) :
    (frameStep fmt o m r).idx = r.idx + 1 := by
  unfold frameStep
  split <;> (try split) <;> rfl

/-- One iteration appends one normalised sample. -/
@[simp] theorem frameStep_mono (fmt : SampleFormat) (o m : Int) (r : ScanRegs) :
    (frameStep fmt o m r).mono = r.mono ++ [normalise fmt o] := by
  unfold frameStep
  split <;> (try split) <;> rfl

/-- What is reported already and what the scan still reports, together, do not change in one iteration. -/
theorem frameStep_diags (fmt : SampleFormat) (o m : Int) (r : ScanRegs) (vs : List Int) :
    (frameStep fmt o m r).diags ++ scanFrom (frameStep fmt o m r).run vs = r.diags ++ scanFrom r.run (m :: vs) := by
  unfold frameStep
  split
  · rename_i h; rw [h]; rfl
  · rename_i rr h
    rw [h]
    by_cases hm : m = rr.last
    · rw [if_pos hm]; simp only [scanFrom, if_pos hm]
    · rw [if_neg hm]; simp only [scanFrom, if_neg hm, List.append_assoc]

/-- What the loop does with `k` frames left: no load leaves the buffer, and the result is what was produced so far
followed by the rest of both channels. -/
theorem scanLoop_spec (ord : ByteOrder) (c : CfgReg) (raw : List Byte) (k : Nat) (r : ScanRegs)
    (h : r.idx + k ≤ numFrames c.fmt raw) :
    (scanLoop ord c raw k r).map scanResult =
      some (r.mono ++ (valuesFrom ord c.fmt raw c.out r.idx k).map (normalise c.fmt),
        r.diags ++ scanFrom r.run (valuesFrom ord c.fmt raw c.mon r.idx k)) := by
  induction k generalizing r with
  | zero => simp [scanLoop, scanResult, valuesFrom, scanFrom]
  | succ k ih =>
    have hi : r.idx < numFrames c.fmt raw := by omega
    simp only [scanLoop, chan_eq_sampleAt ord _ hi]
    rw [ih _ (by rw [frameStep_idx]; omega)]
    simp only [frameStep_idx, frameStep_mono, valuesFrom_succ, frameStep_diags, List.map_cons, List.append_assoc,
      List.singleton_append]

/-- `Convert` always has a value: the output channel's normalised values, and the scan of the monitored ones. -/
theorem convert_eq (ord : ByteOrder) (c : CfgReg) (raw : List Byte) :
    convert ord c raw = some (monoOf ord c raw, scanFrom none (channelValues ord c.fmt raw c.mon)) := by
  rw [convert, scanLoop_spec ord c raw _ scanStart (by simp [scanStart])]
  simp [scanStart, monoOf, channelValues_eq_valuesFrom]

/-- The `Repeat` log events are those of the table, with severity Warning. -/
theorem map_repeatLog (ds : List RepeatDiagnostic) : ds.map repeatLog = repeatLogs ds := rfl

/-- Every outcome of the converter half: two rejections, or the conversion. -/
theorem convertThen_spec (raw : List Byte) (k : List Int → State → State) (s : State) :
    convertThen raw k s =
      if s.cfg.cvalid = false then .next (s.raise .notConfigured)
      else if raw.length % frameSize s.cfg.fmt ≠ 0 then
        .next (s.raise (.malformedBufferError (frameSize s.cfg.fmt) raw.length))
      else .next (k (monoOf s.ord s.cfg raw)
        (s.emit (repeatLogs (scanFrom none (channelValues s.ord s.cfg.fmt raw s.cfg.mon))))) := by
  unfold convertThen
  rw [convert_eq]
  by_cases hv : s.cfg.cvalid = false
  · rw [if_pos hv, if_pos hv]
  · rw [if_neg hv, if_neg hv]
    by_cases hl : raw.length % frameSize s.cfg.fmt = 0 <;> simp [lengthOK, hl, map_repeatLog]

end Sys2Proof.Machine
end

