-- ==== Sys2Proof/Laws/Forwarder.lean ====
section
/-! SUPPORT. What the forwarder's shared operations can do, said once. -/

namespace Sys2Proof.Machine

/-- The status that an answer to a `SendTo` of `len` bytes leads to (42_forwarder.md rule R134). -/
def sendStatus (len : Nat) : SendAnswer → Status
  | .err code => .sendError (.transport code)
  | .sent n => if n = len then .ok else .sendError (.short n len)

/-- A successful end is `raise` with the status `OK`, which no log event goes with. -/
theorem State.finish_eq_raise (s : State) : s.finish = s.raise .ok := rfl

/-- The forwarder's `send` outside `Open`: rejected, no request (42_forwarder.md rule R134). -/
theorem sendSamples_of_not_opened {s : State} (h : s.fstate ≠ .opened) (samples : List Int) :
    sendSamples samples s = s.raise .invalidState := if_pos h

/-- The forwarder's `send` in `Open`: one request, and the status of its answer (42_forwarder.md rule R134). -/
theorem sendSamples_of_opened {s : State} (h : s.fstate = .opened) (samples : List Int) :
    sendSamples samples s =
      (s.asked (.sendTo s.handle s.dest (serialize s.ord samples))).raise
        (sendStatus (serialize s.ord samples).length (sendAnswer s.nextDraw (serialize s.ord samples).length)) := by
  unfold sendSamples
  rw [if_neg (not_not.mpr h)]
  simp only
  generalize sendAnswer s.nextDraw (serialize s.ord samples).length = a
  cases a with
  | err code => rfl
  | sent n =>
    by_cases hn : n = (serialize s.ord samples).length
    · simp only [hn, ne_eq, not_true_eq_false, if_false, sendStatus, if_true, State.finish_eq_raise]
    · simp only [ne_eq, hn, not_false_eq_true, if_true, sendStatus, if_false]

/-- OPEN's reuse step changes no register and goes on in every case (42_forwarder.md rule R132). -/
theorem askReuse_cases (s : State) :
    ∃ warning, askReuse s = (s.asked (.setReuse s.handle)).emit warning ∧
      (optionAnswer s.nextDraw = .ok ∧ warning = [] ∨
        ∃ code, optionAnswer s.nextDraw = .err code ∧ warning = [.log .warning (.reuseFailed code)]) := by
  unfold askReuse
  cases h : optionAnswer s.nextDraw with
  | ok => exact ⟨[], by simp, .inl ⟨rfl, rfl⟩⟩
  | err code => exact ⟨_, rfl, .inr ⟨code, rfl, rfl⟩⟩

/-- What `releaseHeld` does to a state that holds no socket: nothing. -/
theorem releaseHeld_of_not_sock {s : State} (h : s.sock = false) : releaseHeld s = s := by simp [releaseHeld, h]

/-- What `releaseHeld` does to a state that holds a socket: one request, and the socket is gone. -/
theorem releaseHeld_of_sock {s : State} (h : s.sock = true) :
    releaseHeld s = (s.emit [.request (.release s.handle)]).dropSocket := by simp [releaseHeld, h]

/-- Every outcome of DEST (42_forwarder.md rule R131). -/
theorem execDest_cases (text : List Byte) (port : BitVec 16) (s : State) :
    (s.fstate ≠ .unconfigured ∧ execDest text port s = .next (s.raise .invalidState)) ∨
    (s.fstate = .unconfigured ∧ s.parseAddr text = none ∧ execDest text port s = .next (s.raise .addressError)) ∨
    (∃ a, s.fstate = .unconfigured ∧ s.parseAddr text = some a ∧ execDest text port s =
      .next ((s.writeDest { family := a.family, addr := a.addr, port := port }).writeFState .configured).finish) := by
  unfold execDest
  by_cases h : s.fstate = .unconfigured
  · rw [if_neg (not_not.mpr h)]
    cases hp : s.parseAddr text with
    | none => exact .inr (.inl ⟨h, rfl, rfl⟩)
    | some a => exact .inr (.inr ⟨a, h, rfl, rfl⟩)
  · exact .inl ⟨h, by rw [if_pos h]⟩

/-- The state in which OPEN has made its three requests, with what the reuse step logged. -/
def State.openAsked (h : Handle) (warning : List Event) (s : State) : State :=
  ((((s.asked .create).holdSocket h).asked (.setReuse h)).emit warning).asked (.setNonBlock h)

/-- Every outcome of OPEN (42_forwarder.md rule R132). -/
theorem execOpenSocket_cases (s : State) :
    (s.fstate ≠ .configured ∧ execOpenSocket s = .next (s.raise .invalidState)) ∨
    (∃ code, s.fstate = .configured ∧ createAnswer s.nextDraw = .createErr code ∧
      execOpenSocket s = .next (((s.asked .create).writeFState .failed).raise (.socketError .create code))) ∨
    (∃ h warning, s.fstate = .configured ∧ createAnswer s.nextDraw = .createOk h ∧
      (optionAnswer (s.upcoming 1) = .ok ∧ warning = [] ∨
        ∃ code, optionAnswer (s.upcoming 1) = .err code ∧ warning = [.log .warning (.reuseFailed code)]) ∧
      ((∃ code, optionAnswer (s.upcoming 2) = .err code ∧ execOpenSocket s =
          .next (((s.openAsked h warning).writeFState .failed).raise (.socketError .nonBlock code))) ∨
        (optionAnswer (s.upcoming 2) = .ok ∧ execOpenSocket s =
          .next ((s.openAsked h warning).writeFState .opened).finish))) := by
  unfold execOpenSocket
  by_cases hf : s.fstate = .configured
  · rw [if_neg (not_not.mpr hf)]
    unfold askCreate
    cases hc : createAnswer s.nextDraw with
    | createErr code => exact .inr (.inl ⟨code, hf, rfl, rfl⟩)
    | createOk h =>
      obtain ⟨warning, e, hw⟩ := askReuse_cases ((s.asked .create).holdSocket h)
      refine .inr (.inr ⟨h, warning, hf, rfl, by simpa [State.nextDraw_eq_upcoming] using hw, ?_⟩)
      simp only [e, askNonBlock, State.nextDraw_eq_upcoming, State.emit_upcoming, State.asked_upcoming,
        State.holdSocket_upcoming]
      cases h2 : optionAnswer (s.upcoming 2) with
      | ok => exact .inr ⟨rfl, rfl⟩
      | err code => exact .inl ⟨code, rfl, rfl⟩
  · exact .inl ⟨hf, by rw [if_pos hf]⟩

end Sys2Proof.Machine
end

