-- ==== Sys2Proof/Laws/PerInstr.lean ====
section
/-! SUPPORT. Statements made per command. The family EncodesLegally: the packet of every command is none of the packets
that 30_encoding.md rule R74 calls illegal. -/

namespace Sys2Proof

/-- A 16-bit number takes two bytes of a packet. -/
theorem packet16_length (u : Nat) : (packet16 u).length = 2 := rfl

end Sys2Proof

namespace Sys2Proof.Laws.EncodesLegally

/-- The packet of `i` is legal. -/
def Statement (i : Instr) : Prop := packetIllegal (encode i) = false

theorem cfg (fmt : SampleFormat) (out mon : Channel) : Statement (.cfg fmt out mon) := by
  unfold Statement; cases fmt <;> cases out <;> cases mon <;> decide

theorem dest (text : List Byte) (port : BitVec 16) : Statement (.dest text port) := by
  simp [Statement, encode, packet16, packetIllegal, illegalEmpty, illegalOpcode, illegalArg, illegalReserved,
    illegalLength, packetOpc, packetArg]

theorem openSocket : Statement .openSocket := by unfold Statement; decide

theorem convert (raw : List Byte) : Statement (.convert raw) := by
  simp [Statement, encode, packetIllegal, illegalEmpty, illegalOpcode, illegalArg, illegalReserved, illegalLength,
    packetOpc, packetArg]

theorem send (samples : List Int) : Statement (.send samples) := by
  simp [Statement, encode, packetIllegal, illegalEmpty, illegalOpcode, illegalArg, illegalReserved, illegalLength,
    packetOpc, packetArg, packet16_length]

theorem frame (raw : List Byte) : Statement (.frame raw) := by
  simp [Statement, encode, packetIllegal, illegalEmpty, illegalOpcode, illegalArg, illegalReserved, illegalLength,
    packetOpc, packetArg]

theorem close : Statement .close := by unfold Statement; decide

end Sys2Proof.Laws.EncodesLegally
end

