-- ==== Sys2Proof/Laws/Step.lean ====
section
/-! SUPPORT. What a step can do, said once: it is idle, resets, rejects an illegal packet, or runs a command. -/

namespace Sys2Proof.Machine

/-- Every case of a step. -/
theorem step_cases (s : State) :
    (s.inputs = [] ∧ step s = .next s) ∨
    (∃ strap rest, s.inputs = .reset strap :: rest ∧ step s = .next (s.takeInput.resetBlock strap)) ∨
    (∃ p rest why, s.inputs = .packet p :: rest ∧ decode p = .error why ∧
      step s = .next (s.takeInput.raise .illegalCommand)) ∨
    (∃ p rest i, s.inputs = .packet p :: rest ∧ decode p = .ok i ∧ step s = exec i s.takeInput) := by
  unfold step State.fetch
  match h : s.inputs with
  | [] => exact .inl ⟨rfl, rfl⟩
  | .reset strap :: rest => exact .inr (.inl ⟨strap, rest, rfl, rfl⟩)
  | .packet p :: rest =>
    cases hd : decode p with
    | error why => exact .inr (.inr (.inl ⟨p, rest, why, rfl, hd, by simp only [hd]; rfl⟩))
    | ok i => exact .inr (.inr (.inr ⟨p, rest, i, rfl, hd, by simp only [hd]⟩))

/-- CFG, its two outcomes (40_setup.md rule R90). -/
theorem execCfg_cases (fmt : SampleFormat) (out mon : Channel) (s : State) :
    (s.cfg.cvalid = true ∧ execCfg fmt out mon s = .next (s.raise .configLocked)) ∨
    (s.cfg.cvalid = false ∧ execCfg fmt out mon s =
      .next (s.writeCfg { fmt := fmt, out := out, mon := mon, cvalid := true }).finish) := by
  unfold execCfg
  cases h : s.cfg.cvalid
  · exact .inr ⟨rfl, rfl⟩
  · exact .inl ⟨rfl, rfl⟩

/-- Any status that an answer to `SendTo` leads to is `OK` or a `SendError` (42_forwarder.md rule R134). -/
theorem sendStatus_cases (len : Nat) (a : SendAnswer) : sendStatus len a = .ok ∨ ∃ k, sendStatus len a = .sendError k := by
  cases a with
  | err code => exact .inr ⟨_, rfl⟩
  | sent n =>
    by_cases hn : n = len
    · exact .inl (if_pos hn)
    · exact .inr ⟨_, if_neg hn⟩

/-- What OPEN's reuse step may have logged: nothing, or one warning (42_forwarder.md rule R132). -/
abbrev IsReuseWarning (es : List Event) : Prop := es = [] ∨ ∃ code, es = [.log .warning (.reuseFailed code)]

/-- The `Repeat` log events of a conversion in state `s`. -/
abbrev State.repeatsOf (s : State) (raw : List Byte) : List Event :=
  repeatLogs (scanFrom none (channelValues s.ord s.cfg.fmt raw s.cfg.mon))

/-- `Ends s i t`: the state `t` is one in which the command `i` may leave `s`, with the conditions under which it does. -/
inductive Ends (s : State) : Instr → State → Prop
  | cfgLocked {fmt out mon} : s.cfg.cvalid = true → Ends s (.cfg fmt out mon) (s.raise .configLocked)
  | cfgAccepted {fmt out mon} : s.cfg.cvalid = false →
      Ends s (.cfg fmt out mon) (s.writeCfg { fmt := fmt, out := out, mon := mon, cvalid := true }).finish
  | destRejected {text port} : s.fstate ≠ .unconfigured → Ends s (.dest text port) (s.raise .invalidState)
  | destFails {text port} : s.fstate = .unconfigured → s.parseAddr text = none →
      Ends s (.dest text port) (s.raise .addressError)
  | destStored {text port a} : s.fstate = .unconfigured → s.parseAddr text = some a →
      Ends s (.dest text port)
        ((s.writeDest { family := a.family, addr := a.addr, port := port }).writeFState .configured).finish
  | openRejected : s.fstate ≠ .configured → Ends s .openSocket (s.raise .invalidState)
  | openCreateFails {code} : s.fstate = .configured → createAnswer s.nextDraw = .createErr code →
      Ends s .openSocket (((s.asked .create).writeFState .failed).raise (.socketError .create code))
  | openNonBlockFails {h warning code} : s.fstate = .configured → createAnswer s.nextDraw = .createOk h →
      IsReuseWarning warning →
      Ends s .openSocket (((s.openAsked h warning).writeFState .failed).raise (.socketError .nonBlock code))
  | openSucceeds {h warning} : s.fstate = .configured → createAnswer s.nextDraw = .createOk h →
      IsReuseWarning warning → Ends s .openSocket ((s.openAsked h warning).writeFState .opened).finish
  | sendRejected {samples} : s.fstate ≠ .opened → Ends s (.send samples) (s.raise .invalidState)
  | sendAsked {samples x} : s.fstate = .opened → (x = .ok ∨ ∃ k, x = .sendError k) →
      Ends s (.send samples) ((s.asked (.sendTo s.handle s.dest (serialize s.ord samples))).raise x)
  | convertNotConfigured {raw} : s.cfg.cvalid = false → Ends s (.convert raw) (s.raise .notConfigured)
  | convertMalformed {raw} : s.cfg.cvalid = true → raw.length % frameSize s.cfg.fmt ≠ 0 →
      Ends s (.convert raw) (s.raise (.malformedBufferError (frameSize s.cfg.fmt) raw.length))
  | converted {raw} : s.cfg.cvalid = true → raw.length % frameSize s.cfg.fmt = 0 →
      Ends s (.convert raw) ((s.emit (s.repeatsOf raw)).emit [.mono (monoOf s.ord s.cfg raw)]).finish
  | frameNotConfigured {raw} : s.cfg.cvalid = false → Ends s (.frame raw) (s.raise .notConfigured)
  | frameMalformed {raw} : s.cfg.cvalid = true → raw.length % frameSize s.cfg.fmt ≠ 0 →
      Ends s (.frame raw) (s.raise (.malformedBufferError (frameSize s.cfg.fmt) raw.length))
  | frameRejected {raw} : s.cfg.cvalid = true → raw.length % frameSize s.cfg.fmt = 0 → s.fstate ≠ .opened →
      Ends s (.frame raw) ((s.emit (s.repeatsOf raw)).raise .invalidState)
  | frameAsked {raw x} : s.cfg.cvalid = true → raw.length % frameSize s.cfg.fmt = 0 → s.fstate = .opened →
      (x = .ok ∨ ∃ k, x = .sendError k) →
      Ends s (.frame raw)
        (((s.emit (s.repeatsOf raw)).asked
          (.sendTo s.handle s.dest (serialize s.ord (monoOf s.ord s.cfg raw)))).raise x)
  | closeFailed : s.fstate = .failed → Ends s .close (releaseHeld s).finish
  | closed : s.fstate ≠ .failed → Ends s .close ((releaseHeld s).writeFState .closed).finish

/-- The inversion of `convertThen`: how a command made of the converter half and a continuation may end. -/
theorem convertThen_ends {raw : List Byte} {k : List Int → State → State} {s t : State}
    (h : convertThen raw k s = .next t) :
    (s.cfg.cvalid = false ∧ t = s.raise .notConfigured) ∨
    (s.cfg.cvalid = true ∧ raw.length % frameSize s.cfg.fmt ≠ 0 ∧
      t = s.raise (.malformedBufferError (frameSize s.cfg.fmt) raw.length)) ∨
    (s.cfg.cvalid = true ∧ raw.length % frameSize s.cfg.fmt = 0 ∧
      t = k (monoOf s.ord s.cfg raw) (s.emit (s.repeatsOf raw))) := by
  rw [convertThen_spec] at h
  cases hv : s.cfg.cvalid
  · rw [if_pos hv] at h; cases h; exact .inl ⟨rfl, rfl⟩
  · rw [if_neg (by rw [hv]; decide)] at h
    by_cases hl : raw.length % frameSize s.cfg.fmt = 0
    · rw [if_neg (not_not.mpr hl)] at h; cases h; exact .inr (.inr ⟨rfl, hl, rfl⟩)
    · rw [if_pos hl] at h; cases h; exact .inr (.inl ⟨rfl, hl, rfl⟩)

/-- Every way in which a command can end, said once: later proofs split this, not `exec`. -/
theorem ends_of_exec {i : Instr} {s t : State} (h : exec i s = .next t) : Ends s i t := by
  cases i with
  | cfg fmt out mon =>
    rcases execCfg_cases fmt out mon s with ⟨hv, e⟩ | ⟨hv, e⟩ <;> cases h.symm.trans e
    exacts [.cfgLocked hv, .cfgAccepted hv]
  | dest text port =>
    rcases execDest_cases text port s with ⟨hf, e⟩ | ⟨hf, hp, e⟩ | ⟨a, hf, hp, e⟩ <;> cases h.symm.trans e
    exacts [.destRejected hf, .destFails hf hp, .destStored hf hp]
  | openSocket =>
    rcases execOpenSocket_cases s with ⟨hf, e⟩ | ⟨code, hf, hc, e⟩ | ⟨hd, w, hf, hc, hw, ⟨code, -, e⟩ | ⟨-, e⟩⟩ <;>
      cases h.symm.trans e
    · exact .openRejected hf
    · exact .openCreateFails hf hc
    · exact .openNonBlockFails hf hc (hw.imp (·.2) fun ⟨c, hc⟩ => ⟨c, hc.2⟩)
    · exact .openSucceeds hf hc (hw.imp (·.2) fun ⟨c, hc⟩ => ⟨c, hc.2⟩)
  | convert raw =>
    rcases convertThen_ends (show execConvert raw s = .next t from h) with ⟨hv, rfl⟩ | ⟨hv, hl, rfl⟩ | ⟨hv, hl, rfl⟩
    exacts [.convertNotConfigured hv, .convertMalformed hv hl, .converted hv hl]
  | send samples =>
    cases (show Host.Outcome.next (sendSamples samples s) = .next t from h)
    by_cases hf : s.fstate = .opened
    · rw [sendSamples_of_opened hf]; exact .sendAsked hf (sendStatus_cases _ _)
    · rw [sendSamples_of_not_opened hf]; exact .sendRejected hf
  | frame raw =>
    rcases convertThen_ends (show execFrame raw s = .next t from h) with ⟨hv, rfl⟩ | ⟨hv, hl, rfl⟩ | ⟨hv, hl, rfl⟩
    · exact .frameNotConfigured hv
    · exact .frameMalformed hv hl
    · by_cases hf : s.fstate = .opened
      · rw [sendSamples_of_opened (by exact hf)]; exact .frameAsked hv hl hf (sendStatus_cases _ _)
      · rw [sendSamples_of_not_opened (by exact hf)]; exact .frameRejected hv hl hf
  | close =>
    by_cases hf : s.fstate = .failed
    · have e : exec .close s = .next (releaseHeld s).finish := by simp [exec, execClose, hf]
      cases h.symm.trans e; exact .closeFailed hf
    · have e : exec .close s = .next ((releaseHeld s).writeFState .closed).finish := by simp [exec, execClose, hf]
      cases h.symm.trans e; exact .closed hf

end Sys2Proof.Machine
end

