-- ==== Sys2Proof/Tests/Slice0.lean ====
section
/-! SUPPORT. The model's own tests: what WellFormed refuses, decodings of words written out from the spec, single steps
whose results are those of 95_test_vectors.md, and for each obligation a witness that meets its hypotheses. -/

namespace Sys2Proof.Tests

open Sys2Proof Sys2Proof.Machine

/-! ## WellFormed: each check refuses an ill-formed term (30_encoding.md rule R74, 42_forwarder.md rule R134) -/

theorem test_wf_refuses_sample_above : (Instr.send [0, 32768]).wellFormed = false := by decide
theorem test_wf_refuses_sample_below : (Instr.send [-32769]).wellFormed = false := by decide
theorem test_wf_takes_extreme_samples : (Instr.send [-32768, 32767]).wellFormed = true := by decide
theorem test_wf_refuses_empty_packet : illegalEmpty [] = true := by decide
theorem test_wf_refuses_opcodes : [0x00#8, 0x0F#8, 0x80#8, 0xF0#8, 0xFF#8].all (fun b => illegalOpcode [b]) = true := by decide
theorem test_wf_refuses_arg : [0x21#8, 0x31#8, 0x48#8, 0x5F#8, 0x62#8, 0x74#8].all (fun b => illegalArg [b, 0, 0]) = true := by decide
theorem test_wf_refuses_reserved_bit : illegalReserved [0x18#8] = true ∧ illegalReserved [0x17#8] = false := by decide
theorem test_wf_refuses_length : [[0x10#8, 0], [0x30#8, 0], [0x70#8, 0], [0x20#8, 0x8C], [0x50#8, 1]].all illegalLength = true := by decide

/-! ## Decoding: words written out bit by bit from 30_encoding.md rules R68 to R72; the results are those of
95_test_vectors.md 2.7, 2.8 and 2.11 -/

/-- V-C1: `13` is `fmt=I32 out=R mon=L`; bit 0 is `fmt`, bit 1 `out`, bit 2 `mon`. -/
theorem test_decode_cfg_13 : decode [0b0001_0_0_1_1#8] = .ok (.cfg .int32Stereo .right .left) := by rfl
/-- V-C1: `16` is `fmt=I16 out=R mon=R`. -/
theorem test_decode_cfg_16 : decode [0b0001_0_1_1_0#8] = .ok (.cfg .int16Stereo .right .right) := by rfl
/-- V-D1: `DEST "10.0.0.2", 9`. -/
theorem test_decode_dest : decode [0b0010_0000#8, 0x09, 0x00, 0x31, 0x30, 0x2E, 0x30, 0x2E, 0x30, 0x2E, 0x32] =
    .ok (.dest [0x31, 0x30, 0x2E, 0x30, 0x2E, 0x30, 0x2E, 0x32] 9) := by rfl
/-- 2.11: port 5004 and an empty text; the port's low byte comes first. -/
theorem test_decode_dest_port : decode [0x20#8, 0x8C, 0x13] = .ok (.dest [] 5004) := by rfl
theorem test_decode_open : decode [0b0011_0000#8] = .ok .openSocket := by rfl
theorem test_decode_convert : decode [0b0100_0000#8, 0x34, 0x12] = .ok (.convert [0x34, 0x12]) := by rfl
theorem test_decode_convert_empty : decode [0x40#8] = .ok (.convert []) := by rfl
/-- V-S1: `SEND -1, -32768, 32767`. -/
theorem test_decode_send : decode [0b0101_0000#8, 0xFF, 0xFF, 0x00, 0x80, 0xFF, 0x7F] = .ok (.send [-1, -32768, 32767]) := by rfl
theorem test_decode_frame : decode [0b0110_0000#8, 0x00] = .ok (.frame [0x00]) := by rfl
theorem test_decode_close : decode [0b0111_0000#8] = .ok .close := by rfl
/-- 2.11: every illegal packet of the table, with the clause of rule R74 that names it. -/
theorem test_decode_rejects :
    decode [] = .error .emptyPacket ∧ decode [0x00#8] = .error .unassignedOpcode ∧
    decode [0x80#8] = .error .unassignedOpcode ∧ decode [0xFF#8] = .error .unassignedOpcode ∧
    decode [0x18#8] = .error .reservedBit ∧ decode [0x21#8, 0x8C, 0x13] = .error .argNotZero ∧
    decode [0x31#8] = .error .argNotZero ∧ decode [0x10#8, 0x00] = .error .badLength ∧
    decode [0x20#8, 0x8C] = .error .badLength ∧ decode [0x30#8, 0x00] = .error .badLength ∧
    decode [0x50#8, 0x01] = .error .badLength ∧ decode [0x70#8, 0x00] = .error .badLength :=
  ⟨rfl, rfl, rfl, rfl, rfl, rfl, rfl, rfl, rfl, rfl, rfl, rfl⟩
/-- Rule R76: the assembler line `DEST "h", 258` is the packet `20 02 01 68` (program P4, line 3). -/
theorem test_encode_dest : encode (.dest [0x68] 258) = [0x20, 0x02, 0x01, 0x68] := by rfl
theorem test_encode_send : encode (.send [258, -2]) = [0x50, 0x02, 0x01, 0xFE, 0xFF] := by rfl
/-- The table's words, each filled up to the shortest legal packet (log entry 7). -/
theorem test_table_words : decodeTableWord 8 0x17 = some (.cfg .int32Stereo .right .right) ∧
    decodeTableWord 8 0x20 = some (.dest [] 0) ∧ decodeTableWord 8 0x50 = some (.send []) ∧
    decodeTableWord 16 0x150 = some (.send [1]) ∧ decodeTableWord 8 0x18 = none := ⟨rfl, rfl, rfl, rfl, rfl⟩

/-! ## Single steps -/

/-- A draw that accepts. -/
def yes (count : Nat) : Draw := { accept := true, handle := { id := 7 }, code := 0, count := count }

/-- A draw that fails with a code. -/
def no (code : Int) : Draw := { accept := false, handle := { id := 0 }, code := code, count := 0 }

/-- A small state: configured for Int16Stereo, output left, monitor right; a destination; the given forwarder state. -/
def stateAt (f : FState) (draws : List Draw) : State :=
  { State.reset with
    cfg := { fmt := .int16Stereo, out := .left, mon := .right, cvalid := true }
    fstate := f
    sock := f = .opened
    handle := { id := 7 }
    dest := { family := { id := 1 }, addr := [10, 0, 0, 2], port := 9 }
    transport := draws
    resolver := [([0x78], some { family := { id := 2 }, addr := [0x0A] }), ([0x79], none)] }

/-- The state with one packet delivered. -/
def given (p : List Byte) (s : State) : State := { s with inputs := [.packet p] }

/-- The next state's events and forwarder state. -/
def result (o : Host.Outcome State Fault Refusal) : Option (List Event × FState) :=
  match o with
  | .next t => some (t.events, t.fstate)
  | _ => none

/-- The next state. -/
def reached (o : Host.Outcome State Fault Refusal) : Option State :=
  match o with
  | .next t => some t
  | _ => none

/-- V-C1: `15` is `fmt=I32 out=L mon=R`, and it sets `CVALID`. -/
theorem test_step_cfg : (reached (step (given [0x15] State.reset))).map State.cfg =
    some { fmt := .int32Stereo, out := .left, mon := .right, cvalid := true } := by decide
/-- V-C2. -/
theorem test_step_cfg_locked : result (step (given [0x11] (stateAt .failed []))) = some ([.rsp .configLocked], .failed) := by decide
/-- V-D1: the destination register holds what `ParseAddr` answered, and the port. -/
theorem test_step_dest : (reached (step (given [0x20, 0x02, 0x01, 0x78] (stateAt .unconfigured [])))).map
    (fun t => (t.dest, t.fstate)) = some ({ family := { id := 2 }, addr := [0x0A], port := 258 }, .configured) := by decide
/-- V-D2. -/
theorem test_step_dest_fails : result (step (given [0x20, 0x09, 0x00, 0x79] (stateAt .unconfigured []))) =
    some ([.log .error .addressUnparsable, .rsp .addressError], .unconfigured) := by decide
/-- V-O5: both option steps fail. -/
theorem test_step_open_fails : result (step (given [0x30] (stateAt .configured [yes 0, no 92, no 22]))) =
    some ([.request .create, .request (.setReuse { id := 7 }), .log .warning (.reuseFailed 92),
      .request (.setNonBlock { id := 7 }), .log .error (.nonBlockFailed 22), .rsp (.socketError .nonBlock 22)],
      .failed) := by decide
/-- V-O1. -/
theorem test_step_open : result (step (given [0x30] (stateAt .configured [yes 0, yes 0, yes 0]))) =
    some ([.request .create, .request (.setReuse { id := 7 }), .request (.setNonBlock { id := 7 }), .rsp .ok],
      .opened) := by decide
/-- S1 with S4: the left samples `[10, 20, 30, 40, 50]`, and five equal right samples. -/
theorem test_step_convert : result (step (given
      [0x40, 0x0A, 0, 0xFE, 0xFF, 0x14, 0, 0xFE, 0xFF, 0x1E, 0, 0xFE, 0xFF, 0x28, 0, 0xFE, 0xFF, 0x32, 0, 0xFE, 0xFF]
      (stateAt .closed []))) =
    some ([.log .warning (.repeatRun (-2) 5), .mono [10, 20, 30, 40, 50], .rsp .ok], .closed) := by decide
/-- Program P4, line 2: the same bytes in both orders, `fmt=I32 out=L mon=R`. -/
theorem test_step_convert_orders : [ByteOrder.big, .little].map (fun o => result (step (given
      [0x40, 0x12, 0x34, 0x56, 0x78, 0x9A, 0xBC, 0xDE, 0xF0]
      { State.reset with ord := o, cfg := { fmt := .int32Stereo, out := .left, mon := .right, cvalid := true } }))) =
    [some ([.mono [4660], .rsp .ok], .unconfigured), some ([.mono [30806], .rsp .ok], .unconfigured)] := by decide
/-- Program P4, line 6: the packet's sample is low byte first, the wire is in `ORD`. -/
theorem test_step_send_big : result (step (given [0x50, 0x02, 0x01] { stateAt .opened [no 11] with ord := .big })) =
    some ([.request (.sendTo { id := 7 } (stateAt .opened []).dest [0x01, 0x02]), .log .warning (.sendFailed 11),
      .rsp (.sendError (.transport 11))], .opened) := by decide
/-- V-S3: a partial send. -/
theorem test_step_send_partial : result (step (given [0x50, 0xFF, 0xFF, 0x00, 0x80, 0xFF, 0x7F] (stateAt .opened [yes 4]))) =
    some ([.request (.sendTo { id := 7 } (stateAt .opened []).dest [0xFF, 0xFF, 0x00, 0x80, 0xFF, 0x7F]),
      .log .warning (.sendPartial 4 6), .rsp (.sendError (.short 4 6))], .opened) := by decide
/-- Program P1, line 4 (S7): the payload `0A 00 14 00 1E 00`, and no `Mono` event. -/
theorem test_step_frame : result (step (given [0x60, 0x0A, 0, 0xFF, 0xFF, 0x14, 0, 0xFE, 0xFF, 0x1E, 0, 0xFD, 0xFF]
      (stateAt .opened [yes 6]))) =
    some ([.request (.sendTo { id := 7 } (stateAt .opened []).dest [0x0A, 0, 0x14, 0, 0x1E, 0]), .rsp .ok], .opened) := by decide
/-- S3: a length that is no multiple of the frame size sends nothing. -/
theorem test_step_frame_malformed : result (step (given [0x60, 0, 0, 0] (stateAt .opened [yes 6]))) =
    some ([.log .warning (.malformed 4 3), .rsp (.malformedBufferError 4 3)], .opened) := by decide
/-- 2.10: `Open`, `SOCK = 1`. -/
theorem test_step_close : result (step (given [0x70] (stateAt .opened []))) =
    some ([.request (.release { id := 7 }), .rsp .ok], .closed) := by decide
/-- 2.10: `Failed`, `SOCK = 1`: the socket is released, `Failed` is kept. -/
theorem test_step_close_failed : (reached (step (given [0x70] { stateAt .failed [] with sock := true }))).map
    (fun t => (t.events, t.fstate, t.sock)) = some ([.request (.release { id := 7 }), .rsp .ok], .failed, false) := by decide

/-! ## Witnesses: for each obligation with hypotheses, states and operands that meet them together -/

/-- The configuration of `stateAt` in Int32Stereo. -/
def wide : CfgReg := { fmt := .int32Stereo, out := .left, mon := .left, cvalid := true }

/-- `n` equal Int16Stereo frames: left 7, right -2. -/
def frames (n : Nat) : List Byte := (List.replicate n [0x07#8, 0x00, 0xFE, 0xFF]).flatten

/-- One command for each constructor, SEND with the extreme samples. -/
def commands : List Instr :=
  [.cfg .int16Stereo .left .right, .dest [0x78] 0xFFFF, .openSocket, .convert [0x00], .send [-32768, 32767], .frame [],
    .close]

theorem witness_DecodeGivesBackEncodedCommand : commands.all Instr.wellFormed = true := by decide
theorem witness_EncodeGivesBackDecodedPacket : decode [0x50#8, 0x00, 0x80] = .ok (.send [-32768]) := by rfl
theorem witness_IllegalPacketsAreExactlyRejected :
    [[], [0x00#8], [0x80], [0x21, 0, 0], [0x18], [0x10, 0], [0x20, 0x8C], [0x50, 1]].all
      (fun p => packetIllegal p && (given p State.reset).inputs == [.packet p]) = true := by decide
theorem witness_LoadSampleSpellsBytesInOrder_inside : 1 + 2 ≤ [0x00#8, 0x01, 0x02].length ∧ 0 + 4 ≤ [0#8, 1, 2, 3].length := by decide
theorem witness_LoadSampleSpellsBytesInOrder_outside : [0x00#8, 0x01, 0x02].length < 2 + 2 ∧ [0#8, 1, 2].length < 0 + 4 := by decide
theorem witness_EverySampleLoadIsInsideTheBuffer :
    (frames 3).length % frameSize .int16Stereo = 0 ∧ 2 < (frames 3).length / frameSize .int16Stereo ∧
    (frames 2).length % frameSize .int32Stereo = 0 ∧ 0 < (frames 2).length / frameSize .int32Stereo := by decide
theorem witness_NormalisationKeepsTopSixteenBits : (-2 ^ 31 ≤ (-2147483648 : Int) ∧ (-2147483648 : Int) < 2 ^ 31) ∧
    (-2 ^ 31 ≤ (2147483647 : Int) ∧ (2147483647 : Int) < 2 ^ 31) := by decide
theorem witness_SerializeStoresTwoBytesPerSample : [-32768, 5, (32767 : Int)][2]? = some 32767 := by decide
theorem witness_ConverterSelectsTheOutputChannel : (frames 3).length % frameSize (stateAt .opened []).cfg.fmt = 0 ∧
    2 < (frames 3).length / frameSize (stateAt .opened []).cfg.fmt := by decide
/-- A run of length 5, at the threshold, and one of length 4, below it. -/
theorem witness_OneDiagnosticPerMaximalRun :
    ((frames 5).length % 4 = 0 ∧ MaximalRuns [⟨-2, 5⟩] (channelValues .little .int16Stereo (frames 5) .right)) ∧
    ((frames 4).length % 4 = 0 ∧ MaximalRuns [⟨7, 4⟩] (channelValues .little .int16Stereo (frames 4) .left)) := by
  unfold MaximalRuns; decide
theorem witness_EmptyBufferConvertsToNothing : (stateAt .opened []).cfg.cvalid = true := by decide
theorem witness_OutputAndDiagnosticsAreIndependent : (frames 5).length % frameSize .int16Stereo = 0 := by decide
theorem witness_PayloadBytesAreCopiedFromTheBuffer :
    ((frames 2).length % frameSize (stateAt .opened []).cfg.fmt = 0 ∧ (stateAt .opened []).cfg.fmt = .int16Stereo ∧
      1 < (frames 2).length / 4) ∧
    ((frames 2).length % frameSize wide.fmt = 0 ∧ wide.fmt = .int32Stereo ∧ 0 < (frames 2).length / 8) := by decide
theorem witness_RunsDoNotDependOnByteOrder : (frames 5).length % frameSize .int16Stereo = 0 ∧
    4 < (frames 5).length / frameSize .int16Stereo ∧
    MaximalRuns [⟨7, 5⟩] (channelValues .little .int16Stereo (frames 5) .left) ∧
    MaximalRuns [⟨1792, 5⟩] (channelValues .big .int16Stereo (frames 5) .left) := by unfold MaximalRuns; decide
theorem witness_CfgIsAcceptedOnce : State.reset.cfg.cvalid = false ∧ (stateAt .failed []).cfg.cvalid = true := by decide
theorem witness_DestStoresTheResolvedDestination :
    (stateAt .closed []).fstate ≠ .unconfigured ∧ (stateAt .unconfigured []).fstate = .unconfigured ∧
    (stateAt .unconfigured []).parseAddr [0x79] = none ∧
    (stateAt .unconfigured []).parseAddr [0x78] = some { family := { id := 2 }, addr := [0x0A] } :=
  ⟨by decide, by decide, rfl, rfl⟩
theorem witness_OpenCreatesTheSocket_rejected : (stateAt .unconfigured []).fstate ≠ .configured ∧ (stateAt .opened []).fstate ≠ .configured := by decide
theorem witness_OpenCreatesTheSocket_createFails : (stateAt .configured [no 24]).fstate = .configured ∧
    createAnswer ((stateAt .configured [no 24]).upcoming 0) = .createErr 24 := ⟨rfl, rfl⟩
/-- Both option answers fail, and (the next theorem) both succeed. -/
theorem witness_OpenCreatesTheSocket_nonBlockFails :
    createAnswer ((stateAt .configured [yes 0, no 92, no 22]).upcoming 0) = .createOk { id := 7 } ∧
    optionAnswer ((stateAt .configured [yes 0, no 92, no 22]).upcoming 1) = .err 92 ∧
    optionAnswer ((stateAt .configured [yes 0, no 92, no 22]).upcoming 2) = .err 22 := ⟨rfl, rfl, rfl⟩
theorem witness_OpenCreatesTheSocket_succeeds :
    createAnswer ((stateAt .configured [yes 0, yes 0, yes 0]).upcoming 0) = .createOk { id := 7 } ∧
    optionAnswer ((stateAt .configured [yes 0, yes 0, yes 0]).upcoming 1) = .ok ∧
    optionAnswer ((stateAt .configured [yes 0, yes 0, yes 0]).upcoming 2) = .ok := ⟨rfl, rfl, rfl⟩
theorem witness_SendMakesOneRequest_rejected : (stateAt .configured []).fstate ≠ .opened ∧ (stateAt .failed []).fstate ≠ .opened := by decide
/-- The payload of `SEND 1` has two bytes: an error, `Sent(0)`, `Sent(1)` and `Sent(2)`. -/
theorem witness_SendMakesOneRequest_answers : (stateAt .opened [no 11]).fstate = .opened ∧
    (serialize .little [1]).length = 2 ∧ sendAnswer ((stateAt .opened [no 11]).upcoming 0) 2 = .err 11 ∧
    sendAnswer ((stateAt .opened [yes 0]).upcoming 0) 2 = .sent 0 ∧
    sendAnswer ((stateAt .opened [yes 1]).upcoming 0) 2 = .sent 1 ∧
    sendAnswer ((stateAt .opened [yes 2]).upcoming 0) 2 = .sent 2 := ⟨rfl, rfl, rfl, rfl, rfl, rfl⟩
theorem witness_CloseReleasesAHeldSocket : (stateAt .opened []).sock = true ∧ (stateAt .failed []).sock = false := by decide
/-- Not configured; a length that is no multiple; a run at the threshold and one below it. -/
theorem witness_ConvertDeliversMonoAndDiagnostics : State.reset.cfg.cvalid = false ∧ (stateAt .closed []).cfg.cvalid = true ∧
    [0x00#8, 0x00, 0x00].length % frameSize (stateAt .closed []).cfg.fmt ≠ 0 ∧
    (frames 5).length % frameSize (stateAt .closed []).cfg.fmt = 0 ∧
    MaximalRuns [⟨-2, 5⟩] (channelValues .little .int16Stereo (frames 5) .right) ∧
    MaximalRuns [⟨-2, 4⟩] (channelValues .little .int16Stereo (frames 4) .right) := by unfold MaximalRuns; decide
/-- FRAME's checks are CONVERT's; one frame, whose payload has two bytes, outside `Open` and with each answer in it. -/
theorem witness_FrameConvertsThenSends : (stateAt .opened [no 11]).cfg.cvalid = true ∧
    MaximalRuns [⟨-2, 1⟩] (channelValues .little .int16Stereo (frames 1) .right) ∧
    (serialize .little (monoOf .little (stateAt .opened []).cfg (frames 1))).length = 2 ∧
    (stateAt .failed []).fstate ≠ .opened ∧ sendAnswer ((stateAt .opened [no 11]).upcoming 0) 2 = .err 11 ∧
    sendAnswer ((stateAt .opened [yes 1]).upcoming 0) 2 = .sent 1 ∧
    sendAnswer ((stateAt .opened [yes 2]).upcoming 0) 2 = .sent 2 :=
  ⟨rfl, by unfold MaximalRuns; decide, rfl, by decide, rfl, rfl, rfl⟩
theorem witness_StepRunsTheDecodedCommand : (given [0x70] State.reset).inputs = [.packet [0x70]] ∧
    decode [0x70#8] = .ok .close ∧ decodeTableWord 8 0x70 = some .close := ⟨rfl, rfl, rfl⟩
theorem witness_IdleStepKeepsTheState : (stateAt .opened []).inputs = [] := by decide
theorem witness_ResetInputRestoresTheBlock :
    { stateAt .opened [] with inputs := [.reset .big, .packet [0x10]] }.inputs = .reset .big :: [.packet [0x10]] := by decide
/-- One command for each status named, each in a state that meets the hypotheses. -/
theorem witness_RejectedCommandsChangeNothing :
    result (exec (.frame [0]) (stateAt .opened [])) =
      some ([] ++ [.log .warning (.malformed 4 1)] ++ [.rsp (.malformedBufferError 4 1)], .opened) ∧
    result (exec (.dest [0x79] 9) (stateAt .unconfigured [])) =
      some ([] ++ [.log .error .addressUnparsable] ++ [.rsp .addressError], .unconfigured) ∧
    result (exec (.send [1]) (stateAt .closed [])) = some ([] ++ [] ++ [.rsp .invalidState], .closed) ∧
    result (exec (.frame (frames 5)) (stateAt .closed [])) =
      some ([] ++ [.log .warning (.repeatRun (-2) 5)] ++ [.rsp .invalidState], .closed) ∧
    result (exec (.convert []) State.reset) = some ([] ++ [] ++ [.rsp .notConfigured], .unconfigured) ∧
    result (exec (.cfg .int16Stereo .left .left) (stateAt .closed [])) = some ([] ++ [] ++ [.rsp .configLocked], .closed) := by
  decide
/-- For each clause a command that does change the register. -/
theorem witness_OnlyTheNamedCommandsWriteARegister :
    (∃ t, exec (.cfg .int16Stereo .left .left) State.reset = .next t ∧ t.cfg ≠ State.reset.cfg) ∧
    (∃ t, exec (.dest [0x78] 9) (stateAt .unconfigured []) = .next t ∧ t.fstate ≠ .unconfigured ∧
      t.dest ≠ (stateAt .unconfigured []).dest) ∧
    (∃ t, exec .openSocket { stateAt .configured [yes 0, yes 0, yes 0] with handle := { id := 1 } } = .next t ∧
      t.sock ≠ (stateAt .configured []).sock ∧ t.handle ≠ { id := 1 }) ∧
    (∃ t, exec .close (stateAt .opened []) = .next t ∧ t.sock ≠ true ∧ t.fstate ≠ .opened) :=
  ⟨⟨_, rfl, by decide⟩, ⟨_, rfl, by decide⟩, ⟨_, rfl, by decide⟩, ⟨_, rfl, by decide⟩⟩
theorem witness_InvariantIsKeptByEveryStep : (given [0x70] (stateAt .opened [])).Inv ∧
    ∃ t, step (given [0x70] (stateAt .opened [])) = .next t ∧ t.fstate = .closed := ⟨by decide, _, rfl, by decide⟩
theorem witness_ForwarderMovesAlongItsStateMachine :
    (∀ strap rest, (given [0x30] (stateAt .configured [no 24])).inputs ≠ .reset strap :: rest) ∧
    (∃ t, step (given [0x30] (stateAt .configured [no 24])) = .next t ∧ t.fstate = .failed) ∧
    (∃ t, step (given [0x70] (stateAt .failed [])) = .next t ∧ (stateAt .failed []).fstate = .failed) :=
  ⟨fun _ _ h => (by cases h), ⟨_, rfl, by decide⟩, ⟨_, rfl, by decide⟩⟩
theorem witness_ConfigurationIsImmutableAfterSetUp :
    (∃ t, step (given [0x11] (stateAt .configured [])) = .next t) ∧
    (∀ strap rest, (given [0x11] (stateAt .configured [])).inputs ≠ .reset strap :: rest) ∧
    (given [0x11] (stateAt .configured [])).cfg.cvalid = true ∧ (given [0x11] (stateAt .configured [])).fstate ≠ .unconfigured ∧
    ∃ t, step { stateAt .opened [] with inputs := [.reset .little] } = .next t :=
  ⟨⟨_, rfl⟩, fun _ _ h => (by cases h), by decide, by decide, _, rfl⟩
theorem witness_OneBufferMakesAtMostOneDatagram : (stateAt .opened []).cfg.cvalid = true ∧
    (frames 2).length % frameSize (stateAt .opened []).cfg.fmt = 0 ∧ (stateAt .opened []).fstate = .opened := by decide
/-- V-R3: four equal frames and then four more; the second FRAME sends a datagram of its own. -/
theorem witness_NothingIsCarriedFromBufferToBuffer :
    ∃ t u, exec (.convert (frames 4)) (stateAt .opened [yes 8]) = .next t ∧ exec (.frame (frames 4)) t = .next u ∧
      u.events = t.events ++
        [.request (.sendTo { id := 7 } (stateAt .opened []).dest [7, 0, 7, 0, 7, 0, 7, 0]), .rsp .ok] :=
  ⟨_, _, rfl, rfl, by decide⟩
theorem witness_UnwrittenRegistersAreNeverRead : State.reset.Inv ∧ State.reset.cfg.cvalid = false ∧
    State.reset.sock = false ∧ State.reset.fstate = .unconfigured ∧
    ∃ t, exec (.cfg .int32Stereo .right .left) State.reset = .next t ∧ t.cfg.cvalid = true :=
  ⟨by decide, rfl, rfl, rfl, _, rfl, rfl⟩
theorem witness_EveryRequestIsMadeOnce : ∃ t, exec .openSocket (stateAt .configured [yes 0, no 92, yes 0]) = .next t ∧
    t.drawCount = 3 ∧ t.transport = [] := ⟨_, rfl, by decide⟩
theorem witness_DrawsStandForTheAllowedAnswers : (∀ n, SendAnswer.sent 6 = .sent n → n ≤ 6) ∧
    sendAnswer (yes 9) 6 = .sent 6 := ⟨fun _ h => (by cases h; decide), rfl⟩
/-- A run of two steps: the socket is created, then released. -/
theorem witness_TheSocketIsNeverRecreated :
    let s := { stateAt .configured [yes 0, yes 0, yes 0] with inputs := [.packet [0x30], .packet [0x70]] }
    s.Inv ∧ (∀ strap, .reset strap ∉ s.inputs) ∧
    ∃ t, core.run 2 s = .next t ∧ createsIn (s.newEvents t) = 1 ∧ t.fstate = .closed :=
  ⟨by decide, fun strap => by cases strap <;> decide, _, rfl, by decide, by decide⟩
/-- From the state right after reset, with a resolver entry and three accepting draws; one frame. -/
theorem witness_SetUpMakesFramesSend :
    let s := { State.reset with
      transport := [yes 0, yes 0, yes 0]
      resolver := [([0x78], some { family := { id := 2 }, addr := [0x0A] })]
      inputs := [.packet (encode (.cfg .int16Stereo .left .right)), .packet (encode (.dest [0x78] 9)),
        .packet (encode .openSocket), .packet (encode (.frame (frames 1)))] }
    s.cfg.cvalid = false ∧ s.fstate = .unconfigured ∧
    s.parseAddr [0x78] = some { family := { id := 2 }, addr := [0x0A] } ∧
    createAnswer (s.upcoming 0) = .createOk { id := 7 } ∧ optionAnswer (s.upcoming 1) = .ok ∧
    optionAnswer (s.upcoming 2) = .ok ∧ (frames 1).length % frameSize .int16Stereo = 0 :=
  ⟨rfl, rfl, rfl, rfl, rfl, rfl, rfl⟩

end Sys2Proof.Tests
end

/-! PROOFS. 00_scope.md: every step answers a next state, and it runs the command that the next packet decodes to. -/

namespace Sys2Proof.Machine

/-! ## Completion -/

/-- The converter half that CONVERT and FRAME share completes in every state: `Convert` has a value on every buffer, so
no load leaves it (20_memory.md rule R41). -/
theorem convertThen_completes (raw : List Byte) (k : List Int → State → State) (s : State) :
    ∃ t, convertThen raw k s = .next t := by
  rw [convertThen_spec]
  split_ifs <;> exact ⟨_, rfl⟩

/-- CONVERT is the converter half that ends by delivering the mono sequence (41_converter.md rule R108). -/
theorem exec_convert (raw : List Byte) (s : State) :
    exec (.convert raw) s = convertThen raw (fun mono s => (s.emit [.mono mono]).finish) s := rfl

/-- FRAME is the converter half that ends by sending the mono sequence (43_pipeline.md rule R160). -/
theorem exec_frame (raw : List Byte) (s : State) : exec (.frame raw) s = convertThen raw sendSamples s := rfl

/-- Every command completes in every state; only the converter half has a path to a fault. -/
theorem exec_completes (i : Instr) (s : State) : ∃ t, exec i s = .next t := by
  cases i with
  | convert raw => rw [exec_convert]; exact convertThen_completes raw _ s
  | frame raw => rw [exec_frame]; exact convertThen_completes raw _ s
  | cfg fmt out mon => exact ⟨_, rfl⟩
  | dest text port => exact ⟨_, rfl⟩
  | openSocket => exact ⟨_, rfl⟩
  | send samples => exact ⟨_, rfl⟩
  | close => exact ⟨_, rfl⟩

/-- Settles O28: an idle step, a reset and a rejected packet answer a state at once, and a command completes. -/
theorem noStepStops : Obligations.NoStepStops := by
  intro s
  obtain ⟨-, e⟩ | ⟨strap, rest, -, e⟩ | ⟨p, rest, why, -, -, e⟩ | ⟨p, rest, i, -, -, e⟩ := step_cases s
  · exact ⟨_, e⟩
  · exact ⟨_, e⟩
  · exact ⟨_, e⟩
  · rw [e]; exact exec_completes i _

/-! ## Delivery -/

/-- Taking the input removes its first element and nothing else. -/
theorem State.takeInput_of_inputs {s : State} {x : HostInput} {rest : List HostInput} (h : s.inputs = x :: rest) :
    s.takeInput = { s with inputs := rest } := by
  rw [State.takeInput, h, List.tail_cons]

/-- Taking the input undoes the delivery of a packet. -/
@[simp] theorem State.takeInput_placePacket (s : State) (p : List Byte) : (s.placePacket p).takeInput = s := rfl

/-- A step whose next input is the packet of a command runs that command (30_encoding.md rule R73). -/
theorem step_of_packet {s : State} {p : List Byte} {rest : List HostInput} {i : Instr}
    (h : s.inputs = .packet p :: rest) (hd : decode p = .ok i) : step s = exec i s.takeInput := by
  have hf : s.fetch = .run i := by simp only [State.fetch, h, hd]
  rw [step, hf]

/-- A table word reads as the command that the packet standing for it decodes to (log entry 7). -/
theorem decode_of_decodeTableWord {nbits w : Nat} {i : Instr} (h : decodeTableWord nbits w = some i) :
    decode (packetOfWord nbits w) = .ok i := by
  unfold decodeTableWord at h
  cases hd : decode (packetOfWord nbits w) with
  | error why => rw [hd] at h; cases h
  | ok j => rw [hd] at h; cases h; rfl

/-- Settles O23: both clauses are the step on a delivered packet; `withFetchWord` delivers the packet of its word. -/
theorem stepRunsTheDecodedCommand : Obligations.StepRunsTheDecodedCommand := by
  constructor
  · intro s p rest i h hd
    rw [step_of_packet h hd, State.takeInput_of_inputs h]
  · intro s nbits w i h
    have hin : (s.withFetchWord nbits w).inputs = .packet (packetOfWord nbits w) :: s.inputs := rfl
    rw [step_of_packet hin (decode_of_decodeTableWord h), State.withFetchWord, State.takeInput_placePacket]

end Sys2Proof.Machine

/-! PROOFS. 10_state.md: which registers a command writes (section 2), the socket's invariant (rule R31), the locks of the
configuration (rule R33), and that a register is not read before it is written (rule R32). -/

namespace Sys2Proof.Machine

/-! ## The requests of an event list -/

@[simp] theorem requestsIn_nil : requestsIn [] = [] := rfl
@[simp] theorem requestsIn_append (es fs : List Event) : requestsIn (es ++ fs) = requestsIn es ++ requestsIn fs :=
  List.filterMap_append
@[simp] theorem requestsIn_request (r : TransportRequest) (es : List Event) :
    requestsIn (.request r :: es) = r :: requestsIn es := rfl
@[simp] theorem requestsIn_log (v : Severity) (k : LogKind) (es : List Event) :
    requestsIn (.log v k :: es) = requestsIn es := rfl
@[simp] theorem requestsIn_mono (xs : List Int) (es : List Event) : requestsIn (.mono xs :: es) = requestsIn es := rfl
@[simp] theorem requestsIn_rsp (x : Status) (es : List Event) : requestsIn (.rsp x :: es) = requestsIn es := rfl

/-- No status brings a request with it. -/
@[simp] theorem requestsIn_errorEvents (x : Status) : requestsIn (errorEvents x) = [] := by
  unfold errorEvents
  cases x.logKind <;> rfl

/-- `Repeat` log events are no requests. -/
@[simp] theorem requestsIn_repeatLogs (ds : List RepeatDiagnostic) : requestsIn (repeatLogs ds) = [] := by
  induction ds with
  | nil => rfl
  | cons d ds ih => exact ih

/-- What OPEN's reuse step logs is no request. -/
theorem requestsIn_of_isReuseWarning {es : List Event} (h : IsReuseWarning es) : requestsIn es = [] := by
  obtain rfl | ⟨code, rfl⟩ := h <;> rfl

/-- The `Create` requests of an event list are those among its requests. -/
theorem createsIn_eq_count (es : List Event) : createsIn es = (requestsIn es).count .create := by
  rw [createsIn, requestsIn, List.count, List.count, List.countP_filterMap]
  refine List.countP_congr fun e _ => ?_
  cases e <;> simp

/-! ## The output of an operation -/

/-- How many of the requests in an event list take a draw (42_forwarder.md rule R136). -/
def answeredIn (es : List Event) : Nat := (requestsIn es).countP TransportRequest.answered

/-- `s` once the events `es` are out and each answered request among them has taken its draw. No register changes. -/
def State.output (es : List Event) (s : State) : State :=
  { s with
    events := s.events ++ es
    transport := s.transport.drop (answeredIn es)
    drawCount := s.drawCount + answeredIn es }

@[simp] theorem State.output_cfg (s : State) (es : List Event) : (s.output es).cfg = s.cfg := rfl
@[simp] theorem State.output_fstate (s : State) (es : List Event) : (s.output es).fstate = s.fstate := rfl
@[simp] theorem State.output_sock (s : State) (es : List Event) : (s.output es).sock = s.sock := rfl
@[simp] theorem State.output_handle (s : State) (es : List Event) : (s.output es).handle = s.handle := rfl
@[simp] theorem State.output_dest (s : State) (es : List Event) : (s.output es).dest = s.dest := rfl
@[simp] theorem State.output_ord (s : State) (es : List Event) : (s.output es).ord = s.ord := rfl
@[simp] theorem State.output_inputs (s : State) (es : List Event) : (s.output es).inputs = s.inputs := rfl
@[simp] theorem State.output_events (s : State) (es : List Event) : (s.output es).events = s.events ++ es := rfl
@[simp] theorem State.output_resolver (s : State) (es : List Event) : (s.output es).resolver = s.resolver := rfl

/-- No output, no change. -/
@[simp] theorem State.output_nil (s : State) : s.output [] = s := by simp [State.output, answeredIn]

/-- Two outputs are one. -/
@[simp] theorem State.output_output (s : State) (es fs : List Event) :
    (s.output es).output fs = s.output (es ++ fs) := by
  simp [State.output, answeredIn, Nat.add_assoc]

/-- Events without a request take no draw. -/
theorem State.emit_eq_output {es : List Event} (h : requestsIn es = []) (s : State) : s.emit es = s.output es := by
  simp [State.emit, State.output, answeredIn, h]

/-- An answered request takes one draw. -/
theorem State.asked_eq_output {r : TransportRequest} (h : r.answered = true) (s : State) :
    s.asked r = s.output [.request r] := by
  simp [State.asked, State.afterDraw, State.emit, State.output, answeredIn, h]

theorem State.raise_eq_output (s : State) (x : Status) : s.raise x = s.output (errorEvents x) :=
  State.emit_eq_output (requestsIn_errorEvents x) s

/-- An operation's response, with its log event, is the last of its output; `finish` is `raise .ok`. -/
theorem State.raise_output (s : State) (es : List Event) (x : Status) :
    (s.output es).raise x = s.output (es ++ errorEvents x) := by
  rw [State.raise_eq_output, State.output_output]

/-- The events of OPEN up to its third request. -/
def openEvents (h : Handle) (warning : List Event) : List Event :=
  [.request .create, .request (.setReuse h)] ++ warning ++ [.request (.setNonBlock h)]

/-- OPEN's three requests leave the registers as the taking of the socket does. -/
theorem State.openAsked_eq_output (h : Handle) {warning : List Event} (hw : IsReuseWarning warning) (s : State) :
    s.openAsked h warning = (s.holdSocket h).output (openEvents h warning) := by
  have e : (s.output [.request .create]).holdSocket h = (s.holdSocket h).output [.request .create] := rfl
  rw [State.openAsked, State.asked_eq_output rfl s, e, State.asked_eq_output rfl,
    State.emit_eq_output (requestsIn_of_isReuseWarning hw), State.asked_eq_output rfl]
  simp [openEvents]

/-- The events of `releaseHeld` (42_forwarder.md rule R135). -/
def State.releaseEvents (s : State) : List Event := if s.sock then [.request (.release s.handle)] else []

/-- Releasing what is held leaves `SOCK = 0` and changes no other register; a `Release` takes no draw. -/
theorem releaseHeld_eq_output (s : State) : releaseHeld s = s.dropSocket.output s.releaseEvents := by
  cases h : s.sock
  · have hd : s.dropSocket = s := congrArg (fun b => { s with sock := b }) h.symm
    have he : s.releaseEvents = [] := by simp [State.releaseEvents, h]
    rw [releaseHeld_of_not_sock h, hd, he, State.output_nil]
  · have he : s.releaseEvents = [.request (.release s.handle)] := by simp [State.releaseEvents, h]
    rw [releaseHeld_of_sock h, he]
    rfl

/-! ## What a command writes -/

/-- `Writes s i es r`: in `s` the command `i` emits `es`, and the registers it leaves are those of `r`. -/
inductive Writes (s : State) : Instr → List Event → State → Prop
  | nothing {i es} : i ≠ .close → requestsIn es = [] → Writes s i es s
  | sends {i es p} : ((∃ samples, i = .send samples) ∨ ∃ raw, i = .frame raw) → s.fstate = .opened →
      requestsIn es = [.sendTo s.handle s.dest p] → Writes s i es s
  | cfg {fmt out mon es} : s.cfg.cvalid = false → requestsIn es = [] →
      Writes s (.cfg fmt out mon) es (s.writeCfg { fmt := fmt, out := out, mon := mon, cvalid := true })
  | dest {text port d es} : s.fstate = .unconfigured → requestsIn es = [] →
      Writes s (.dest text port) es ((s.writeDest d).writeFState .configured)
  | createFails {es} : s.fstate = .configured → requestsIn es = [.create] →
      Writes s .openSocket es (s.writeFState .failed)
  | created {h f es} : s.fstate = .configured → (f = .failed ∨ f = .opened) →
      requestsIn es = [.create, .setReuse h, .setNonBlock h] →
      Writes s .openSocket es ((s.holdSocket h).writeFState f)
  | close {es} : requestsIn es = (if s.sock then [.release s.handle] else []) →
      Writes s .close es (s.dropSocket.writeFState (if s.fstate = .failed then .failed else .closed))

/-- The requests of OPEN that created a socket. -/
theorem requestsIn_openEvents (h : Handle) {warning : List Event} (hw : IsReuseWarning warning) :
    requestsIn (openEvents h warning) = [.create, .setReuse h, .setNonBlock h] := by
  simp [openEvents, requestsIn_of_isReuseWarning hw]

/-- The one request of CLOSE, if it makes one. -/
theorem requestsIn_releaseEvents (s : State) :
    requestsIn s.releaseEvents = if s.sock then [.release s.handle] else [] := by
  unfold State.releaseEvents
  split <;> rfl

/-- A command that is rejected or fails at once writes nothing. -/
theorem exists_writes_raise {i : Instr} (hi : i ≠ .close) (s : State) (x : Status) :
    ∃ es r, Writes s i es r ∧ s.raise x = r.output es :=
  ⟨_, s, .nothing hi (requestsIn_errorEvents x), s.raise_eq_output x⟩

/-- The end of CLOSE, whichever state it moves to. -/
theorem exists_writes_release {f : FState} {s : State} (hf : f = if s.fstate = .failed then .failed else .closed) :
    ∃ es r, Writes s .close es r ∧ ((releaseHeld s).writeFState f).finish = r.output es := by
  subst hf
  refine ⟨s.releaseEvents ++ errorEvents .ok, _, .close (by simp [requestsIn_releaseEvents]), ?_⟩
  rw [releaseHeld_eq_output, ← State.raise_output]
  rfl

/-- The end of FRAME or SEND in `Open`: the logs of the conversion, one request, and a response. -/
theorem exists_writes_send {i : Instr} {s : State} {logs : List Event} {p : List Byte} (x : Status)
    (hi : (∃ samples, i = .send samples) ∨ ∃ raw, i = .frame raw) (hf : s.fstate = .opened)
    (hl : requestsIn logs = []) :
    ∃ es r, Writes s i es r ∧ ((s.emit logs).asked (.sendTo s.handle s.dest p)).raise x = r.output es := by
  refine ⟨(logs ++ [.request (.sendTo s.handle s.dest p)]) ++ errorEvents x, s, .sends hi hf (by simp [hl]; rfl), ?_⟩
  rw [State.emit_eq_output hl, State.asked_eq_output rfl, State.output_output, State.raise_output]

/-- Every end of a command writes registers in one of the seven ways, and its output is the rest. -/
theorem Ends.writes {s t : State} {i : Instr} (h : Ends s i t) : ∃ es r, Writes s i es r ∧ t = r.output es := by
  cases h with
  | cfgLocked | destRejected | destFails | openRejected | sendRejected | convertNotConfigured | convertMalformed
  | frameNotConfigured | frameMalformed => exact exists_writes_raise (by simp) s _
  | cfgAccepted hv => exact ⟨_, _, .cfg hv rfl, State.raise_eq_output _ .ok⟩
  | destStored hf => exact ⟨_, _, .dest hf rfl, State.raise_eq_output _ .ok⟩
  | @openCreateFails code hf =>
    refine ⟨[.request .create] ++ errorEvents (.socketError .create code), _, .createFails hf (by simp), ?_⟩
    rw [State.asked_eq_output rfl, ← State.raise_output]
    rfl
  | @openNonBlockFails h warning code hf _ hw =>
    refine ⟨openEvents h warning ++ errorEvents (.socketError .nonBlock code), _, .created hf (.inl rfl)
      (by rw [requestsIn_append, requestsIn_openEvents h hw, requestsIn_errorEvents, List.append_nil]), ?_⟩
    rw [State.openAsked_eq_output h hw, ← State.raise_output]
    rfl
  | @openSucceeds h warning hf _ hw =>
    refine ⟨openEvents h warning ++ errorEvents .ok, _, .created hf (.inr rfl)
      (by rw [requestsIn_append, requestsIn_openEvents h hw, requestsIn_errorEvents, List.append_nil]), ?_⟩
    rw [State.openAsked_eq_output h hw, ← State.raise_output]
    rfl
  | sendAsked hf => simpa using exists_writes_send (logs := []) _ (.inl ⟨_, rfl⟩) hf rfl
  | frameAsked _ _ hf => exact exists_writes_send _ (.inr ⟨_, rfl⟩) hf (requestsIn_repeatLogs _)
  | @converted raw =>
    refine ⟨(s.repeatsOf raw ++ [.mono (monoOf s.ord s.cfg raw)]) ++ errorEvents .ok, s,
      .nothing (by simp) (by simp), ?_⟩
    rw [State.emit_emit, State.emit_eq_output (by simp), State.finish_eq_raise, State.raise_output]
  | @frameRejected raw =>
    refine ⟨s.repeatsOf raw ++ errorEvents .invalidState, s, .nothing (by simp) (by simp), ?_⟩
    rw [State.emit_eq_output (by simp), State.raise_output]
  | closeFailed hf =>
    have e : (releaseHeld s).writeFState .failed = releaseHeld s := by
      rw [releaseHeld_eq_output, State.writeFState, ← hf]; rfl
    rw [← e]
    exact exists_writes_release (by rw [if_pos hf])
  | closed hf => exact exists_writes_release (by rw [if_neg hf])

/-- What a command writes and emits, said once for the claims about registers and counts. -/
theorem writes_of_exec {i : Instr} {s t : State} (h : exec i s = .next t) :
    ∃ es r, Writes s i es r ∧ t = r.output es := (ends_of_exec h).writes

/-! ## The invariant of the socket -/

/-- In `Unconfigured` and `Configured` no socket is held (10_state.md rule R31 (a)). -/
theorem State.Inv.sock_eq_false {s : State} (hs : s.Inv) (h : s.fstate = .unconfigured ∨ s.fstate = .configured) :
    s.sock = false := by
  by_contra hk
  obtain h | h := h <;> simpa [h] using hs.1 (by simpa using hk)

/-- What a command writes keeps the invariant: DEST and a failed creation hold no socket, a created one goes with `Failed`
or `Open`, and CLOSE drops it. -/
theorem Writes.inv {s r : State} {i : Instr} {es : List Event} (h : Writes s i es r) (hs : s.Inv) : r.Inv := by
  cases h with
  | nothing | sends | cfg => exact hs
  | dest hf => simp [State.Inv, hs.sock_eq_false (.inl hf)]
  | createFails => simp [State.Inv]
  | created _ hf => obtain rfl | rfl := hf <;> simp [State.Inv]
  | close => by_cases hf : s.fstate = .failed <;> simp [State.Inv, hf]

/-- Settles O31: after reset no socket is held and the forwarder is not `Open`. -/
theorem invariantHoldsAtReset : Obligations.InvariantHoldsAtReset := ⟨nofun, nofun⟩

/-- Settles O32: reset drops the socket, an idle step and a rejected packet leave the registers, and a command keeps the
invariant by what it writes. -/
theorem invariantIsKeptByEveryStep : Obligations.InvariantIsKeptByEveryStep := by
  intro s t hs h
  obtain ⟨-, e⟩ | ⟨strap, rest, -, e⟩ | ⟨p, rest, why, -, -, e⟩ | ⟨p, rest, i, -, -, e⟩ := step_cases s
  · cases h.symm.trans e
    exact hs
  · cases h.symm.trans e
    exact ⟨nofun, nofun⟩
  · cases h.symm.trans e
    exact hs
  · obtain ⟨es, r, hw, rfl⟩ := writes_of_exec (e.symm.trans h)
    exact hw.inv (s := s.takeInput) hs

/-! ## Which command writes which register -/

section
variable {s r : State} {i : Instr} {es : List Event}

theorem Writes.cfg_eq_or (h : Writes s i es r) :
    r.cfg = s.cfg ∨ s.cfg.cvalid = false ∧ r.cfg.cvalid = true ∧ ∃ fmt out mon, i = .cfg fmt out mon := by
  cases h with
  | cfg hv => exact .inr ⟨hv, rfl, _, _, _, rfl⟩
  | _ => exact .inl rfl

theorem Writes.fstate_eq_or (h : Writes s i es r) :
    r.fstate = s.fstate ∨ (∃ text port, i = .dest text port) ∨ i = .openSocket ∨ i = .close := by
  cases h with
  | nothing | sends | cfg => exact .inl rfl
  | dest => exact .inr (.inl ⟨_, _, rfl⟩)
  | createFails | created => exact .inr (.inr (.inl rfl))
  | close => exact .inr (.inr (.inr rfl))

theorem Writes.sock_eq_or (h : Writes s i es r) : r.sock = s.sock ∨ i = .openSocket ∨ i = .close := by
  cases h with
  | created => exact .inr (.inl rfl)
  | close => exact .inr (.inr rfl)
  | _ => exact .inl rfl

theorem Writes.handle_eq_or (h : Writes s i es r) : r.handle = s.handle ∨ i = .openSocket ∧ r.sock = true := by
  cases h with
  | created => exact .inr ⟨rfl, rfl⟩
  | _ => exact .inl rfl

theorem Writes.dest_eq_or (h : Writes s i es r) :
    r.dest = s.dest ∨ s.fstate = .unconfigured ∧ r.fstate = .configured ∧ ∃ text port, i = .dest text port := by
  cases h with
  | dest hf => exact .inr ⟨hf, rfl, _, _, rfl⟩
  | _ => exact .inl rfl

/-- The events of a command come after it has written its registers: the registers alone emit nothing. -/
theorem Writes.events (h : Writes s i es r) : r.events = s.events := by cases h <;> rfl

/-- No command writes the strap, the waiting inputs or the address table. -/
theorem Writes.surroundings (h : Writes s i es r) :
    r.ord = s.ord ∧ r.inputs = s.inputs ∧ r.resolver = s.resolver := by
  cases h <;> exact ⟨rfl, rfl, rfl⟩

/-- `Unconfigured` is left and never entered. -/
theorem Writes.fstate_ne_unconfigured (h : Writes s i es r) (hf : s.fstate ≠ .unconfigured) :
    r.fstate ≠ .unconfigured := by
  cases h with
  | nothing | sends | cfg => exact hf
  | dest | createFails => exact nofun
  | created _ hf => obtain rfl | rfl := hf <;> exact nofun
  | close => by_cases h : s.fstate = .failed <;> simp [h]

end

/-- Settles O30: register by register, the command that wrote it is one the register's rule names. -/
theorem onlyTheNamedCommandsWriteARegister : Obligations.OnlyTheNamedCommandsWriteARegister := by
  intro i s t h
  obtain ⟨es, r, hw, rfl⟩ := writes_of_exec h
  exact ⟨fun hne => (hw.cfg_eq_or.resolve_left hne).2.2, hw.fstate_eq_or.resolve_left, hw.sock_eq_or.resolve_left,
    fun hne => (hw.handle_eq_or.resolve_left hne).1, fun hne => (hw.dest_eq_or.resolve_left hne).2.2, hw.surroundings⟩

/-! ## The locks of the configuration -/

/-- A step whose next input is no reset is idle, rejects a packet, or runs a command with the packet taken. -/
theorem step_of_not_reset {s t : State} (hn : ∀ strap rest, s.inputs ≠ .reset strap :: rest) (h : step s = .next t) :
    t = s ∨ t = s.takeInput.raise .illegalCommand ∨
      ∃ i es r, Writes s.takeInput i es r ∧ t = r.output es := by
  obtain ⟨-, e⟩ | ⟨strap, rest, hin, -⟩ | ⟨p, rest, why, -, -, e⟩ | ⟨p, rest, i, -, -, e⟩ := step_cases s
  · exact .inl (by cases h.symm.trans e; rfl)
  · exact absurd hin (hn strap rest)
  · exact .inr (.inl (by cases h.symm.trans e; rfl))
  · exact .inr (.inr ⟨i, writes_of_exec (e.symm.trans h)⟩)

/-- A step whose next input is a reset resets the block. -/
theorem step_of_reset {s : State} {strap : ByteOrder} {rest : List HostInput} (h : s.inputs = .reset strap :: rest) :
    step s = .next (s.takeInput.resetBlock strap) := by
  have hf : s.fetch = .reset strap := by simp only [State.fetch, h]
  rw [step, hf]

/-- Settles O34: CFG writes only while `CVALID = 0`, DEST only in `Unconfigured`, which no command enters. -/
theorem configurationIsImmutableAfterSetUp : Obligations.ConfigurationIsImmutableAfterSetUp := by
  intro s t h
  constructor
  · intro hn
    obtain rfl | rfl | ⟨i, es, r, hw, rfl⟩ := step_of_not_reset hn h
    · exact ⟨fun _ => rfl, fun hf => ⟨rfl, hf⟩⟩
    · exact ⟨fun _ => rfl, fun hf => ⟨rfl, hf⟩⟩
    · refine ⟨fun hv => hw.cfg_eq_or.resolve_right fun hc => ?_,
        fun hf => ⟨hw.dest_eq_or.resolve_right fun hd => hf hd.1, hw.fstate_ne_unconfigured hf⟩⟩
      exact Bool.noConfusion (hv.symm.trans hc.1)
  · intro strap rest hin
    cases h.symm.trans (step_of_reset hin)
    exact ⟨rfl, rfl⟩

/-! ## Counting sockets -/

/-- How many `Create` requests may still be made without a reset: OPEN makes one in `Configured` alone, and leaves it. -/
def FState.createsLeft : FState → Nat
  | .unconfigured => 1
  | .configured => 1
  | .opened => 0
  | .failed => 0
  | .closed => 0

theorem FState.createsLeft_le_one (f : FState) : f.createsLeft ≤ 1 := by cases f <;> decide

/-- The balance of sockets from `s` to `t` with the events `es` between: creations use up what `FSTATE` still allows, and
what is released or held was held or created. -/
structure SocketBalance (s : State) (es : List Event) (t : State) : Prop where
  creates : createsIn es + t.fstate.createsLeft ≤ s.fstate.createsLeft
  releases : (requestsIn es).countP (fun r => !r.answered) + t.sock.toNat ≤ s.sock.toNat + createsIn es

/-- Without a request, and with `FSTATE` and `SOCK` as they were, the balance holds. -/
theorem SocketBalance.of_no_request {s t : State} {es : List Event} (hr : requestsIn es = [])
    (hf : t.fstate = s.fstate) (hk : t.sock = s.sock) : SocketBalance s es t := by
  constructor <;> simp [createsIn_eq_count, hr, hf, hk]

/-- Balances of two runs, one after the other, add up. -/
theorem SocketBalance.trans {s t u : State} {es fs : List Event} (h : SocketBalance s es t) (h' : SocketBalance t fs u) :
    SocketBalance s (es ++ fs) u := by
  obtain ⟨hc, hr⟩ := h
  obtain ⟨hc', hr'⟩ := h'
  constructor <;> simp only [createsIn_eq_count, requestsIn_append, List.count_append, List.countP_append] at * <;> omega

/-- Every command keeps the balance. -/
theorem Writes.socketBalance {s r : State} {i : Instr} {es : List Event} (h : Writes s i es r) : SocketBalance s es r := by
  cases h with
  | nothing _ hr => exact .of_no_request hr rfl rfl
  | cfg _ hr => exact .of_no_request hr rfl rfl
  | sends _ _ hr => constructor <;> simp [createsIn_eq_count, hr, TransportRequest.answered]
  | dest hf hr => constructor <;> simp [createsIn_eq_count, hr, hf, FState.createsLeft]
  | createFails hf hr => constructor <;> simp [createsIn_eq_count, hr, hf, FState.createsLeft, TransportRequest.answered]
  | created hf ht hr =>
    obtain rfl | rfl := ht <;> constructor <;>
      simp [createsIn_eq_count, hr, hf, FState.createsLeft, TransportRequest.answered]
  | close hr =>
    have hf : (if s.fstate = .failed then FState.failed else .closed).createsLeft = 0 := by split_ifs <;> rfl
    cases hk : s.sock <;> constructor <;> simp [createsIn_eq_count, hr, hk, hf, TransportRequest.answered]

/-- A step without reset emits events that keep the balance, and what waits after it waited before. -/
theorem step_socketBalance {s t : State} (hn : ∀ strap, .reset strap ∉ s.inputs) (h : step s = .next t) :
    (∃ es, t.events = s.events ++ es ∧ SocketBalance s es t) ∧ ∀ strap, .reset strap ∉ t.inputs := by
  have htail : ∀ strap, .reset strap ∉ s.inputs.tail := fun strap hm => hn strap (List.mem_of_mem_tail hm)
  obtain rfl | rfl | ⟨i, es, r, hw, rfl⟩ := step_of_not_reset (fun strap rest hin => hn strap (by simp [hin])) h
  · exact ⟨⟨[], by simp, .of_no_request rfl rfl rfl⟩, hn⟩
  · exact ⟨⟨_, rfl, .of_no_request (requestsIn_errorEvents _) rfl rfl⟩, htail⟩
  · exact ⟨⟨es, by rw [State.output_events, hw.events]; rfl, hw.socketBalance.creates, hw.socketBalance.releases⟩,
      by rw [State.output_inputs, hw.surroundings.2.1]; exact htail⟩

/-- A machine's run of `n + 1` steps goes on, after a step that answers a state, from that state. -/
theorem run_succ_of_step (M : Host.Core) {s u : M.State} (h : M.step s = .next u) (n : Nat) :
    M.run (n + 1) s = M.run n u := by
  rw [Host.Core.run, h]

/-- A run of `n + 1` steps is a step and a run of `n`. -/
theorem run_succ {n : Nat} {s t : State} (h : core.run (n + 1) s = .next t) :
    ∃ u : State, step s = .next u ∧ core.run n u = .next t := by
  obtain ⟨u, hu⟩ := noStepStops s
  exact ⟨u, hu, (run_succ_of_step core hu n).symm.trans h⟩

/-- Along a run without reset the events added keep the balance. -/
theorem run_socketBalance (n : Nat) {s t : State} (hn : ∀ strap, .reset strap ∉ s.inputs) (h : core.run n s = .next t) :
    ∃ es, t.events = s.events ++ es ∧ SocketBalance s es t := by
  induction n generalizing s with
  | zero =>
    cases h
    exact ⟨[], by simp, .of_no_request rfl rfl rfl⟩
  | succ n ih =>
    obtain ⟨u, hu, hrun⟩ := run_succ h
    obtain ⟨⟨es, he, hb⟩, hn'⟩ := step_socketBalance hn hu
    obtain ⟨fs, hf, hb'⟩ := ih hn' hrun
    exact ⟨es ++ fs, by rw [hf, he, List.append_assoc], hb.trans hb'⟩

/-- Settles O40: the balance of the whole run; it needs no invariant at the start. -/
theorem theSocketIsNeverRecreated : Obligations.TheSocketIsNeverRecreated := by
  intro n s t _ hn h
  obtain ⟨es, he, hc, hr⟩ := run_socketBalance n hn h
  have hnew : s.newEvents t = es := by rw [State.newEvents, he, List.drop_left]
  rw [hnew]
  have := s.fstate.createsLeft_le_one
  exact ⟨by omega, hr⟩

/-! ## The tables -/

/-- Settles O26: the four elements that 10_state.md rule R32 and 00_scope.md rule R8 give a value. -/
theorem resetValuesAreThoseOfTheTable : Obligations.ResetValuesAreThoseOfTheTable := ⟨rfl, rfl, rfl, rfl⟩

/-- Each bit of `CFG` is the code of its field (10_state.md rule R21); the register has sixteen values. -/
theorem CfgReg.bits_getLsbD (c : CfgReg) :
    c.bits.getLsbD 0 = (c.fmt == .int32Stereo) ∧ c.bits.getLsbD 1 = (c.out == .right) ∧
      c.bits.getLsbD 2 = (c.mon == .right) ∧ c.bits.getLsbD 3 = c.cvalid := by
  obtain ⟨fmt, out, mon, v⟩ := c
  cases fmt <;> cases out <;> cases mon <;> cases v <;> decide

/-- The log kinds that are errors (60_exceptions.md rule R176). -/
theorem LogKind.severity_eq_error_iff (k : LogKind) :
    k.severity = .error ↔ (∃ e, k = .socketCreateFailed e) ∨ (∃ e, k = .nonBlockFailed e) ∨ k = .addressUnparsable := by
  cases k <;> simp [LogKind.severity]

/-- Settles O42: the register's bits, the codes by the rows of the tables, and the severities. -/
theorem codesAreThoseOfTheTables : Obligations.CodesAreThoseOfTheTables :=
  ⟨CfgReg.bits_getLsbD, rfl, fun _ _ _ _ _ => rfl, fun _ _ _ _ => rfl, LogKind.severity_eq_error_iff,
    fun _ _ _ => ⟨rfl, rfl⟩, rfl, rfl⟩

/-! ## Registers that nothing has written yet -/

/-- `s` with other values in the registers that may still be unwritten: `c` for `CFG` while `CVALID = 0`, `h` for `HANDLE`
while `SOCK = 0`, and `d` for `DEST` unless `FSTATE` is `Configured`, where a DEST has just written it. -/
def State.refilled (c : CfgReg) (h : Handle) (d : Destination) (s : State) : State :=
  { s with
    cfg := bif s.cfg.cvalid then s.cfg else c
    handle := bif s.sock then s.handle else h
    dest := if s.fstate = .configured then s.dest else d }

section
variable {s : State} {c : CfgReg} {h : Handle} {d : Destination}

theorem State.refilled_cvalid (hc : c.cvalid = s.cfg.cvalid) : (s.refilled c h d).cfg.cvalid = s.cfg.cvalid := by
  cases hv : s.cfg.cvalid <;> simp [State.refilled, hv, hc]

theorem State.refilled_cfg (hv : s.cfg.cvalid = true) : (s.refilled c h d).cfg = s.cfg := by simp [State.refilled, hv]

theorem State.refilled_handle (hk : s.sock = true) : (s.refilled c h d).handle = s.handle := by simp [State.refilled, hk]

theorem State.refilled_dest (hd : d = s.dest) : (s.refilled c h d).dest = s.dest := by simp [State.refilled, hd]

/-- A move of `FSTATE` other than DEST's leaves the values that are filled in. -/
theorem State.writeFState_refilled {f : FState} (hf : f ≠ .configured) (hd : s.fstate = .configured → d = s.dest) :
    (s.refilled c h d).writeFState f = (s.writeFState f).refilled c h d := by
  by_cases hcf : s.fstate = .configured
  · simp [State.refilled, State.writeFState, hf, hcf, hd hcf]
  · simp [State.refilled, State.writeFState, hf, hcf]

/-- CFG does not read `FMT`, `OUT` or `MON` (40_setup.md rule R90). -/
theorem execCfg_refilled {fmt : SampleFormat} {out mon : Channel} {t : State} (hc : c.cvalid = s.cfg.cvalid)
    (e : execCfg fmt out mon s = .next t) : execCfg fmt out mon (s.refilled c h d) = .next (t.refilled c h d) := by
  have hv := State.refilled_cvalid (s := s) (h := h) (d := d) hc
  unfold execCfg at e ⊢
  rw [hv]
  cases hb : s.cfg.cvalid <;> rw [hb] at e <;> cases e <;> rfl

/-- DEST reads no register but `FSTATE` (42_forwarder.md rule R131). -/
theorem execDest_refilled {text : List Byte} {port : BitVec 16} {t : State}
    (e : execDest text port s = .next t) : execDest text port (s.refilled c h d) = .next (t.refilled c h d) := by
  have hf : (s.refilled c h d).fstate = s.fstate := rfl
  have hp : (s.refilled c h d).parseAddr text = s.parseAddr text := rfl
  unfold execDest at e ⊢
  rw [hf, hp]
  split_ifs at e ⊢
  · cases e; rfl
  · cases hp : s.parseAddr text <;> rw [hp] at e <;> cases e <;> rfl

/-- OPEN's reuse step reads `HANDLE` of a held socket alone. -/
theorem askReuse_refilled (hk : s.sock = true) : askReuse (s.refilled c h d) = (askReuse s).refilled c h d := by
  have hn : (s.refilled c h d).nextDraw = s.nextDraw := rfl
  unfold askReuse
  rw [hn, State.refilled_handle hk]
  cases optionAnswer s.nextDraw <;> rfl

/-- OPEN's non-blocking step reads `HANDLE` of a held socket alone. -/
theorem askNonBlock_refilled (hk : s.sock = true) (hd : d = s.dest) :
    askNonBlock (s.refilled c h d) = (askNonBlock s).refilled c h d := by
  have hn : (s.refilled c h d).nextDraw = s.nextDraw := rfl
  have hw {f : FState} (hf : f ≠ .configured) :=
    State.writeFState_refilled (s := s.asked (.setNonBlock s.handle)) (c := c) (h := h) hf fun _ => hd
  unfold askNonBlock
  rw [hn, State.refilled_handle hk]
  cases optionAnswer s.nextDraw with
  | ok => exact congrArg State.finish (hw (by decide))
  | err code => exact congrArg (State.raise _) (hw (by decide))

/-- OPEN's first step fails: `Failed`, and no socket (42_forwarder.md rule R132). -/
theorem askCreate_of_createErr {code : Code} (ha : createAnswer s.nextDraw = .createErr code) :
    askCreate s = ((s.asked .create).writeFState .failed).raise (.socketError .create code) := by
  simp only [askCreate, ha]

/-- OPEN's first step gives a socket: the two steps on its handle follow (42_forwarder.md rule R132). -/
theorem askCreate_of_createOk {h : Handle} (ha : createAnswer s.nextDraw = .createOk h) :
    askCreate s = askNonBlock (askReuse ((s.asked .create).holdSocket h)) := by
  simp only [askCreate, ha]

/-- OPEN writes `HANDLE` before it reads it. -/
theorem askCreate_refilled (hd : d = s.dest) : askCreate (s.refilled c h d) = (askCreate s).refilled c h d := by
  have hn : (s.refilled c h d).nextDraw = s.nextDraw := rfl
  cases ha : createAnswer s.nextDraw with
  | createErr code =>
    rw [askCreate_of_createErr ha, askCreate_of_createErr (hn ▸ ha)]
    exact congrArg (State.raise _)
      (State.writeFState_refilled (s := s.asked .create) (by decide) fun _ => hd)
  | createOk h' =>
    have hu : ((s.refilled c h d).asked .create).holdSocket h' = ((s.asked .create).holdSocket h').refilled c h d := rfl
    obtain ⟨w, hw, -⟩ := askReuse_cases ((s.asked .create).holdSocket h')
    rw [askCreate_of_createOk ha, askCreate_of_createOk (hn ▸ ha), hu, askReuse_refilled rfl,
      askNonBlock_refilled (by rw [hw]; rfl) (by rw [hw]; exact hd)]

/-- OPEN reads neither `CFG` nor `DEST`, and no handle but the one it writes. -/
theorem execOpenSocket_refilled {t : State} (hd : s.fstate ≠ .unconfigured → d = s.dest)
    (e : execOpenSocket s = .next t) : execOpenSocket (s.refilled c h d) = .next (t.refilled c h d) := by
  have hf : (s.refilled c h d).fstate = s.fstate := rfl
  cases e
  unfold execOpenSocket
  rw [hf]
  split_ifs with hcf
  · rfl
  · rw [askCreate_refilled (hd (by simp [not_not.mp hcf]))]

/-- The forwarder's `send` reads `HANDLE` and `DEST` in `Open` alone, where they are written. -/
theorem sendSamples_refilled (hs : s.Inv) (hd : s.fstate ≠ .unconfigured → d = s.dest) (samples : List Int) :
    sendSamples samples (s.refilled c h d) = (sendSamples samples s).refilled c h d := by
  by_cases hf : s.fstate = .opened
  · rw [sendSamples_of_opened hf, sendSamples_of_opened (s := s.refilled c h d) hf,
      State.refilled_handle (hs.2 hf), State.refilled_dest (hd (by simp [hf]))]
    rfl
  · rw [sendSamples_of_not_opened hf, sendSamples_of_not_opened (s := s.refilled c h d) hf]
    rfl

/-- The converter half reads `FMT`, `OUT` and `MON` only with `CVALID = 1`. -/
theorem convertThen_refilled {raw : List Byte} {k : List Int → State → State} {t : State} (hc : c.cvalid = s.cfg.cvalid)
    (hk : ∀ xs es, k xs ((s.emit es).refilled c h d) = (k xs (s.emit es)).refilled c h d)
    (e : convertThen raw k s = .next t) : convertThen raw k (s.refilled c h d) = .next (t.refilled c h d) := by
  rw [convertThen_spec, State.refilled_cvalid hc]
  obtain ⟨hv, rfl⟩ | ⟨hv, hl, rfl⟩ | ⟨hv, hl, rfl⟩ := convertThen_ends e
  · rw [if_pos hv]
    rfl
  · rw [if_neg (by simp [hv]), State.refilled_cfg hv, if_pos hl]
    rfl
  · rw [if_neg (by simp [hv]), State.refilled_cfg hv, if_neg (not_not.mpr hl), ← hk]
    rfl

/-- A release reads `HANDLE` of a held socket alone (42_forwarder.md rule R135). -/
theorem releaseHeld_refilled (hh : s.sock = true → h = s.handle) :
    releaseHeld (s.refilled c h d) = (releaseHeld s).refilled c h d := by
  cases hk : s.sock
  · rw [releaseHeld_of_not_sock hk, releaseHeld_of_not_sock (s := s.refilled c h d) hk]
  · obtain rfl := hh hk
    rw [releaseHeld_of_sock hk, releaseHeld_of_sock (s := s.refilled c s.handle d) hk]
    simp [State.refilled, State.dropSocket, State.emit, hk]

/-- CLOSE reads neither `CFG` nor `DEST`, and the handle of a held socket alone. -/
theorem execClose_refilled {t : State} (hh : s.sock = true → h = s.handle) (hd : s.fstate ≠ .unconfigured → d = s.dest)
    (e : execClose s = .next t) : execClose (s.refilled c h d) = .next (t.refilled c h d) := by
  have hf : (s.refilled c h d).fstate = s.fstate := rfl
  have hr : (releaseHeld s).fstate = s.fstate ∧ (releaseHeld s).dest = s.dest := by
    rw [releaseHeld_eq_output]; exact ⟨rfl, rfl⟩
  cases e
  unfold execClose
  rw [hf, releaseHeld_refilled hh]
  split_ifs
  · rw [State.writeFState_refilled (by decide)
      fun hcf => (hd (by rw [← hr.1, hcf]; decide)).trans hr.2.symm]
    rfl
  · rfl

/-- Values filled in for what is not written yet reach no event and no other register, and stay until they are written. -/
theorem exec_refilled {i : Instr} {t : State} (hs : s.Inv) (hc : c.cvalid = s.cfg.cvalid)
    (hh : s.sock = true → h = s.handle) (hd : s.fstate ≠ .unconfigured → d = s.dest) (e : exec i s = .next t) :
    exec i (s.refilled c h d) = .next (t.refilled c h d) := by
  cases i with
  | cfg fmt out mon => exact execCfg_refilled hc e
  | dest text port => exact execDest_refilled e
  | openSocket => exact execOpenSocket_refilled hd e
  | convert raw =>
    exact convertThen_refilled (k := fun mono s => (s.emit [.mono mono]).finish) hc (fun _ _ => rfl) e
  | send samples =>
    cases e
    exact congrArg _ (sendSamples_refilled hs hd samples)
  | frame raw => exact convertThen_refilled hc (fun xs es => sendSamples_refilled (s := s.emit es) hs hd xs) e
  | close => exact execClose_refilled hh hd e

end

/-- A register that a command leaves unwritten has the value it had before. -/
theorem unwritten_of_exec {i : Instr} {s t : State} (e : exec i s = .next t) :
    (bif t.cfg.cvalid then t.cfg else s.cfg) = t.cfg ∧ (bif t.sock then t.handle else s.handle) = t.handle ∧
      (if t.fstate = .configured then t.dest else s.dest) = t.dest := by
  obtain ⟨es, r, hw, rfl⟩ := writes_of_exec e
  refine ⟨?_, ?_, ?_⟩
  · obtain hc | ⟨-, hv, -⟩ := hw.cfg_eq_or
    · simp [hc]
    · simp [hv]
  · obtain hh | ⟨-, hk⟩ := hw.handle_eq_or
    · simp [hh]
    · simp [hk]
  · obtain hd | ⟨-, hf, -⟩ := hw.dest_eq_or
    · simp [hd]
    · simp [hf]

/-- Settles O37: each clause fills in the one register that is not written, and leaves the two others their own values. -/
theorem unwrittenRegistersAreNeverRead : Obligations.UnwrittenRegistersAreNeverRead := by
  intro i s t hs e
  obtain ⟨hc, hh, hd⟩ := unwritten_of_exec e
  refine ⟨fun hv f o m => ?_, fun hk h => ?_, fun hf d => ?_⟩
  · have := exec_refilled (c := ⟨f, o, m, false⟩) hs hv.symm (fun _ => rfl) (fun _ => rfl) e
    simp only [State.refilled, hv, cond_false, Bool.cond_self, ite_self, hh, hd] at this
    rw [this, Bool.cond_eq_ite]
    split_ifs <;> rfl
  · have := exec_refilled (h := h) hs rfl (by simp [hk]) (fun _ => rfl) e
    simp only [State.refilled, hk, cond_false, Bool.cond_self, ite_self, hc, hd] at this ⊢
    rw [this, Bool.cond_eq_ite]
    split_ifs <;> rfl
  · have := exec_refilled (d := d) hs rfl (fun _ => rfl) (absurd hf) e
    simp only [State.refilled, hf, Bool.cond_self, reduceCtorEq, if_false, hc, hh] at this ⊢
    rw [this]
    split_ifs <;> rfl

end Sys2Proof.Machine

/-! PROOFS. 20_memory.md: the number a load gives (rule R42), and where the samples of a frame lie (rules R41, R43,
R44). -/

namespace Sys2Proof.Machine

/-! ## The number a byte sequence spells -/

/-- What byte `k` of `w` counts for in order `ORD` (20_memory.md rule R42). -/
def placeValue : ByteOrder → Nat → Nat → Nat
  | .little, _, k => 2 ^ (8 * k)
  | .big, w, k => 2 ^ (8 * (w - 1 - k))

/-- In order Little the first byte is the lowest. -/
theorem placeValue_little_zero (w : Nat) : placeValue .little w 0 = 1 := rfl

/-- In order Little a byte put in front raises the place of every byte by one. -/
theorem placeValue_little_succ (w k : Nat) : placeValue .little (w + 1) (k + 1) = 256 * placeValue .little w k := by
  rw [placeValue, placeValue, pow_mul, pow_mul]; exact pow_succ' 256 k

/-- In order Big the first byte is the highest. -/
theorem placeValue_big_zero (w : Nat) : placeValue .big (w + 1) 0 = 256 ^ w := pow_mul 2 8 w

/-- In order Big a byte put in front leaves the place of every byte. -/
theorem placeValue_big_succ (w k : Nat) : placeValue .big (w + 1) (k + 1) = placeValue .big w k := by
  rw [placeValue, placeValue, Nat.add_sub_cancel, Nat.sub_add_eq, Nat.sub_right_comm]

/-- The number that bytes spell is the sum of the bytes by their places (20_memory.md rule R42). -/
theorem uintOrd_eq_sum (ord : ByteOrder) (bs : List Byte) :
    uintOrd ord bs = ∑ k ∈ Finset.range bs.length, (bs.getD k 0).toNat * placeValue ord bs.length k := by
  induction bs with
  | nil => cases ord <;> rfl
  | cons b bs ih =>
    rw [List.length_cons, Finset.sum_range_succ', add_comm]
    cases ord with
    | little =>
      simp only [uintOrd, uintLittle, List.getD_cons_zero, List.getD_cons_succ, placeValue_little_zero, mul_one,
        placeValue_little_succ, mul_left_comm _ 256, ← Finset.mul_sum] at ih ⊢
      rw [ih]
    | big =>
      simp only [uintOrd, uintBig, List.getD_cons_zero, List.getD_cons_succ, placeValue_big_zero,
        placeValue_big_succ] at ih ⊢
      rw [ih]

/-- A two's-complement reading is congruent to the number read (00_scope.md rule R10). -/
theorem sext_emod {n v : Nat} (hv : v < 2 ^ n) : sext n v % 2 ^ n = v := by
  have hmod : (v : Int) % 2 ^ n = v := Int.emod_eq_of_lt (by omega) (by exact_mod_cast hv)
  unfold sext
  split
  · exact hmod
  · rw [Int.sub_emod_right, hmod]

/-! ## Loads -/

/-- A load that leaves the buffer has no value (20_memory.md rule R41). -/
theorem loadSample_of_lt {raw : List Byte} {off w : Nat} (h : raw.length < off + w) (ord : ByteOrder) :
    loadSample ord raw off w = none := by
  rw [loadSample, memRead_of_lt h, Option.map_none]

/-- A load inside the buffer reads the bytes there as a signed number (20_memory.md rule R42). -/
theorem loadSample_of_le {raw : List Byte} {off w : Nat} (h : off + w ≤ raw.length) (ord : ByteOrder) :
    loadSample ord raw off w = some (sext (8 * w) (uintOrd ord ((raw.drop off).take w))) := by
  rw [loadSample, memRead_of_le h, Option.map_some]

section
variable {raw : List Byte} {off w : Nat} (h : off + w ≤ raw.length) (ord : ByteOrder)
include h

/-- The bytes of a read inside the buffer are `w` in number. -/
theorem length_take_drop : ((raw.drop off).take w).length = w := by
  rw [List.length_take, List.length_drop]; omega

/-- The bytes of a read inside the buffer spell a number of `8w` bits. -/
theorem uintOrd_take_drop_lt : uintOrd ord ((raw.drop off).take w) < 2 ^ (8 * w) := by
  simpa only [length_take_drop h] using uintOrd_lt ord ((raw.drop off).take w)

/-- What a read inside the buffer spells, in terms of the buffer's bytes. -/
theorem uintOrd_take_drop : uintOrd ord ((raw.drop off).take w) =
    ∑ k ∈ Finset.range w, (raw.getD (off + k) 0).toNat * placeValue ord w k := by
  rw [uintOrd_eq_sum, length_take_drop h]
  refine Finset.sum_congr rfl fun k hk => ?_
  have hget : ((raw.drop off).take w).getD k 0 = raw.getD (off + k) 0 := by
    simp [List.getD_eq_getElem?_getD, Finset.mem_range.mp hk]
  rw [hget]

end

/-- Settles O6: a load is the two's-complement reading of the bytes' sum by places, so it lies in the signed range and
is congruent to that sum, at any width above 0. -/
theorem loadSampleSpellsBytesInOrder : Obligations.LoadSampleSpellsBytesInOrder := by
  intro raw off w hw
  refine ⟨fun h ord => ?_, loadSample_of_lt⟩
  have hlt := uintOrd_take_drop_lt h ord
  obtain ⟨hlo, hhi⟩ := sext_range (by omega) hlt
  refine ⟨_, loadSample_of_le h ord, hlo, hhi, ?_⟩
  rw [sext_emod hlt, uintOrd_take_drop h]
  cases ord with
  | little => push_cast [placeValue]; rfl
  | big => push_cast [placeValue]; rfl

/-! ## The frame layout -/

/-- Every sample offset is a whole number of samples: two for each frame before it, and the channel's place in its frame
(20_memory.md rule R43). -/
theorem sampleOffset_eq_mul (fmt : SampleFormat) (c : Channel) (i : Nat) :
    sampleOffset fmt c i = (2 * i + channelCode c) * bytesPerSample fmt := by
  rw [sampleOffset, frameSize_eq]; ring

/-- The left sample of a frame is at its start (20_memory.md rule R43). -/
theorem sampleOffset_left (fmt : SampleFormat) (i : Nat) : sampleOffset fmt .left i = i * frameSize fmt := by
  rw [sampleOffset, channelCode, Nat.zero_mul, Nat.add_zero]

/-- The right sample of a frame is one sample width after its start (20_memory.md rule R43). -/
theorem sampleOffset_right (fmt : SampleFormat) (i : Nat) :
    sampleOffset fmt .right i = i * frameSize fmt + bytesPerSample fmt := by
  rw [sampleOffset, channelCode, Nat.one_mul]

/-- Settles O7: each part is a fact about the sample's offset. A frame index below the count keeps the sample inside,
with or without the length check. -/
theorem everySampleLoadIsInsideTheBuffer : Obligations.EverySampleLoadIsInsideTheBuffer := by
  intro ord fmt raw c i _ hi
  refine ⟨sampleOffset_le c hi, ?_, ?_, ?_, chan_eq_sampleAt ord c hi⟩
  · rw [sampleOffset_eq_mul, Nat.mul_mod_left]
  · rw [chan, sampleOffset_left]
  · rw [chan, sampleOffset_right]

end Sys2Proof.Machine

/-! PROOFS. 30_encoding.md Part B: the opcode rows (rule R73), the decoder against the encoder (rules R67 to R76), and
the packets that are no command (rule R74). -/

namespace Sys2Proof.Machine

/-! ## The opcode rows -/

/-- Every row's mask keeps the four bits `opc` of the opcode byte (30_encoding.md rule R67). -/
theorem mask_keeps_opc : ∀ r ∈ opcodeRows, r.mask &&& 0xF0 = 0xF0 := by decide

/-- A byte that fits a row has the `opc` of the row's pattern. -/
theorem opc_of_fits {b : Byte} {r : OpcodeRow} (hr : r ∈ opcodeRows) (h : (b &&& r.mask) = r.pattern) :
    b &&& 0xF0 = r.pattern &&& 0xF0 := by
  rw [← h, BitVec.and_assoc, mask_keeps_opc r hr]

/-- The patterns of any two rows differ in `opc`. -/
theorem patterns_differ_in_opc :
    opcodeRows.Pairwise fun r r' => r.pattern &&& 0xF0 ≠ r'.pattern &&& 0xF0 := by decide

/-- Settles O4: a byte that fits two rows would have the `opc` of both patterns, and no two patterns share theirs. -/
theorem opcodeRowsDoNotOverlap : Obligations.OpcodeRowsDoNotOverlap := fun _ =>
  patterns_differ_in_opc.imp_of_mem fun hr hr' hne ⟨h, h'⟩ =>
    hne ((opc_of_fits hr h).symm.trans (opc_of_fits hr' h'))

/-- The opcode byte of an operation with `arg` 0: the pattern of its row. -/
def opcodeByte : Op → Byte
  | .cfg => 0x10
  | .dest => 0x20
  | .openSocket => 0x30
  | .convert => 0x40
  | .send => 0x50
  | .frame => 0x60
  | .close => 0x70

/-- Each row's pattern is the byte of its operation. -/
theorem pattern_eq_opcodeByte : ∀ r ∈ opcodeRows, r.pattern = opcodeByte r.op := by decide

/-- CFG's row leaves the low three bits free; every other row fixes the whole byte. -/
theorem mask_cases : ∀ r ∈ opcodeRows, (r.op = .cfg ∧ r.mask = 0xF8) ∨ (r.op ≠ .cfg ∧ r.mask = 0xFF) := by decide

/-- An operation's pattern fits its own row. -/
@[simp] theorem opcodeOf_opcodeByte (op : Op) : opcodeOf (opcodeByte op) = some op := by cases op <;> rfl

/-- The opcode byte of CFG for the values of the three bits of `arg` that it reads (30_encoding.md rule R68). -/
def cfgByte (fmt : SampleFormat) (out mon : Channel) : Byte :=
  BitVec.ofNat 8 (0x10 + 4 * channelCode mon + 2 * channelCode out + formatCode fmt)

theorem encode_cfg (fmt : SampleFormat) (out mon : Channel) : encode (.cfg fmt out mon) = [cfgByte fmt out mon] := rfl

/-- A byte that fits the row of CFG is the one its three low bits give. -/
theorem cfgByte_of_fits : ∀ b : Byte, (b &&& 0xF8) = 0x10 →
    cfgByte (formatOfBit (b.getLsbD 0)) (channelOfBit (b.getLsbD 1)) (channelOfBit (b.getLsbD 2)) = b := by decide

/-- The row that an opcode byte was found to fit. -/
theorem row_of_opcodeOf {b : Byte} {op : Op} (h : opcodeOf b = some op) :
    ∃ r ∈ opcodeRows, (b &&& r.mask) = r.pattern ∧ r.op = op := by
  obtain ⟨r, hr, hop⟩ := Option.map_eq_some_iff.mp h
  exact ⟨r, List.mem_of_find?_eq_some hr, by simpa using List.find?_some hr, hop⟩

/-- CFG's opcode byte spells its operands; the opcode byte of any other operation is its row's pattern. -/
theorem byte_of_opcodeOf {b : Byte} {op : Op} (h : opcodeOf b = some op) :
    (op = .cfg ∧ cfgByte (formatOfBit (b.getLsbD 0)) (channelOfBit (b.getLsbD 1)) (channelOfBit (b.getLsbD 2)) = b) ∨
    (op ≠ .cfg ∧ opcodeByte op = b) := by
  obtain ⟨r, hr, hfit, rfl⟩ := row_of_opcodeOf h
  have hpat := pattern_eq_opcodeByte r hr
  obtain ⟨hop, hmask⟩ | ⟨hop, hmask⟩ := mask_cases r hr <;> rw [hmask, hpat] at hfit
  · rw [hop] at hfit
    exact .inl ⟨hop, cfgByte_of_fits b hfit⟩
  · exact .inr ⟨hop, hfit.symm.trans BitVec.and_allOnes⟩

/-- `opc` is what its four bits alone spell. -/
theorem opc_eq_of_and : ∀ b : Byte, b.toNat / 16 = (b &&& 0xF0).toNat / 16 := by decide

/-- `opc` of an opcode byte is the `opc` of its row's pattern. -/
theorem packetOpc_of_opcodeOf {b : Byte} {op : Op} (h : opcodeOf b = some op) (operand : List Byte) :
    packetOpc (b :: operand) = packetOpc [opcodeByte op] := by
  obtain ⟨r, hr, hfit, rfl⟩ := row_of_opcodeOf h
  show b.toNat / 16 = (opcodeByte r.op).toNat / 16
  rw [opc_eq_of_and, opc_of_fits hr hfit, ← opc_eq_of_and, pattern_eq_opcodeByte r hr]

/-- An opcode byte that fits no row is illegal by clause (b), (c) or (d) of 30_encoding.md rule R74. -/
theorem illegal_of_opcodeOf_none : ∀ b : Byte, opcodeOf b = none →
    (illegalOpcode [b] || illegalArg [b] || illegalReserved [b]) = true := by decide

/-! ## The samples of SEND -/

/-- The operand bytes of SEND (30_encoding.md rule R72). -/
def encodeSamples (samples : List Int) : List Byte := samples.flatMap fun x => packet16 (enc 16 x)

theorem encode_send (samples : List Int) : encode (.send samples) = 0x50 :: encodeSamples samples := rfl

/-- Samples are written one after another. -/
theorem encodeSamples_cons (x : Int) (xs : List Int) :
    encodeSamples (x :: xs) = packet16 (enc 16 x) ++ encodeSamples xs := rfl

/-- Two bytes of an operand field read as one sample. -/
theorem decodeSamples_cons_cons (lo hi : Byte) (bytes : List Byte) :
    decodeSamples (lo :: hi :: bytes) = (decodeSamples bytes).map (sext 16 (unpack16 lo hi) :: ·) := rfl

/-- The bytes of a sample in range read as that sample. -/
theorem decodeSamples_packet16 {x : Int} (hx : sampleInRange x = true) (bytes : List Byte) :
    decodeSamples (packet16 (enc 16 x) ++ bytes) = (decodeSamples bytes).map (x :: ·) := by
  simp only [packet16, List.cons_append, List.nil_append, decodeSamples_cons_cons, unpack16_bytes (enc16_lt x),
    sext_enc16 hx]

/-- Reading the written samples gives them back. -/
theorem decodeSamples_encodeSamples {xs : List Int} (h : xs.all sampleInRange = true) :
    decodeSamples (encodeSamples xs) = some xs := by
  induction xs with
  | nil => rfl
  | cons x xs ih =>
    obtain ⟨hx, hxs⟩ : sampleInRange x = true ∧ xs.all sampleInRange = true := by simpa using h
    rw [encodeSamples_cons, decodeSamples_packet16 hx, ih hxs, Option.map_some]

/-- Samples that were read are in range, and writing them gives the bytes back. -/
theorem encodeSamples_of_decodeSamples {bytes : List Byte} {xs : List Int} (h : decodeSamples bytes = some xs) :
    encodeSamples xs = bytes ∧ xs.all sampleInRange = true := by
  induction bytes using decodeSamples.induct generalizing xs with
  | case1 => cases h; exact ⟨rfl, rfl⟩
  | case2 => cases h
  | case3 lo hi bytes ih =>
    obtain ⟨ys, hys, rfl⟩ := Option.map_eq_some_iff.mp h
    obtain ⟨henc, hall⟩ := ih hys
    have hlt := unpack16_lt lo hi
    rw [encodeSamples_cons, henc, enc16_sext hlt, packet16_unpack16, List.all_cons, sampleInRange_sext16 hlt, hall]
    exact ⟨rfl, rfl⟩

/-- Only an odd number of bytes reads as no samples (30_encoding.md rule R72). -/
theorem length_odd_of_decodeSamples_none {bytes : List Byte} (h : decodeSamples bytes = none) :
    bytes.length % 2 = 1 := by
  induction bytes using decodeSamples.induct with
  | case1 => cases h
  | case2 => rfl
  | case3 lo hi bytes ih =>
    have := ih (Option.map_eq_none_iff.mp h)
    simp only [List.length_cons]; omega

/-! ## The decoder against the encoder -/

/-- A packet whose opcode byte fits a row is read by that row's format. -/
theorem decode_cons_of_opcodeOf {b : Byte} {op : Op} (h : opcodeOf b = some op) (operand : List Byte) :
    decode (b :: operand) = decodeOperands op b operand := by
  simp only [decode, h]

/-- SEND's operand field is its samples (30_encoding.md rule R72). -/
theorem decodeOperands_send_of_some {bytes : List Byte} {xs : List Int} (h : decodeSamples bytes = some xs) (b : Byte) :
    decodeOperands .send b bytes = .ok (.send xs) := by
  simp only [decodeOperands, h]

/-- DEST's operand field is the port's two bytes, then the text (30_encoding.md rule R70). -/
theorem decodeOperands_dest_packet16 (b : Byte) (text : List Byte) (port : BitVec 16) :
    decodeOperands .dest b (packet16 port.toNat ++ text) = .ok (.dest text port) := by
  have hport : BitVec.ofNat 16 port.toNat = port := BitVec.eq_of_toNat_eq (Nat.mod_eq_of_lt port.isLt)
  show Except.ok (Instr.dest text (BitVec.ofNat 16 (unpack16 _ _))) = _
  rw [unpack16_bytes port.isLt, hport]

/-- Settles O1: by command. Each opcode byte selects its own row, CFG's by trying its operands; the operand fields of
DEST and SEND read back what was written. -/
theorem decodeGivesBackEncodedCommand : Obligations.DecodeGivesBackEncodedCommand := by
  intro i hi
  cases i with
  | cfg fmt out mon => cases fmt <;> cases out <;> cases mon <;> rfl
  | dest text port =>
    exact (decode_cons_of_opcodeOf (opcodeOf_opcodeByte .dest) _).trans (decodeOperands_dest_packet16 _ text port)
  | openSocket => rfl
  | convert raw => exact decode_cons_of_opcodeOf (opcodeOf_opcodeByte .convert) raw
  | send samples =>
    exact (decode_cons_of_opcodeOf (opcodeOf_opcodeByte .send) _).trans
      (decodeOperands_send_of_some (decodeSamples_encodeSamples hi) _)
  | frame raw => exact decode_cons_of_opcodeOf (opcodeOf_opcodeByte .frame) raw
  | close => rfl

/-- DEST's packet bytes are the port's two bytes and the text that they read as. -/
theorem encode_dest_unpack16 (lo hi : Byte) (text : List Byte) :
    encode (.dest text (BitVec.ofNat 16 (unpack16 lo hi))) = 0x20 :: lo :: hi :: text := by
  rw [encode, BitVec.toNat_ofNat, Nat.mod_eq_of_lt (unpack16_lt lo hi), packet16_unpack16]
  rfl

/-- What the operand field of a row reads as is written back as the same packet, and its samples are in range. -/
theorem encode_of_decodeOperands {b : Byte} {op : Op} (hb : opcodeOf b = some op) {operand : List Byte} {i : Instr}
    (h : decodeOperands op b operand = .ok i) : encode i = b :: operand ∧ i.wellFormed = true := by
  obtain ⟨rfl, hcfg⟩ | ⟨hop, rfl⟩ := byte_of_opcodeOf hb
  · cases operand <;> cases h
    rw [encode_cfg, hcfg]
    exact ⟨rfl, rfl⟩
  cases op with
  | cfg => exact absurd rfl hop
  | dest =>
    match operand, h with
    | lo :: hi :: text, h => cases h; exact ⟨encode_dest_unpack16 lo hi text, rfl⟩
  | openSocket => cases operand <;> cases h; exact ⟨rfl, rfl⟩
  | convert => cases h; exact ⟨rfl, rfl⟩
  | send =>
    cases hs : decodeSamples operand with
    | none => simp [decodeOperands, hs] at h
    | some xs =>
      cases (decodeOperands_send_of_some hs _).symm.trans h
      obtain ⟨henc, hall⟩ := encodeSamples_of_decodeSamples hs
      rw [encode_send, henc]
      exact ⟨rfl, hall⟩
  | frame => cases h; exact ⟨rfl, rfl⟩
  | close => cases operand <;> cases h; exact ⟨rfl, rfl⟩

/-- Settles O2: a packet that decodes has an opcode byte that fits a row, and the row's operand field is written back. -/
theorem encodeGivesBackDecodedPacket : Obligations.EncodeGivesBackDecodedPacket := by
  intro p i h
  cases p with
  | nil => cases h
  | cons b operand =>
    cases hb : opcodeOf b with
    | none => simp [decode, hb] at h
    | some op => exact encode_of_decodeOperands hb ((decode_cons_of_opcodeOf hb operand).symm.trans h)

/-- Settles O5: the decoder evaluates on each packet. -/
theorem specPacketsDecode : Obligations.SpecPacketsDecode := ⟨rfl, rfl, rfl, rfl, rfl, rfl, rfl⟩

/-! ## Illegal packets -/

/-- The packet of every command is legal. -/
theorem packetIllegal_encode (i : Instr) : packetIllegal (encode i) = false := by
  cases i with
  | cfg fmt out mon => exact Laws.EncodesLegally.cfg fmt out mon
  | dest text port => exact Laws.EncodesLegally.dest text port
  | openSocket => exact Laws.EncodesLegally.openSocket
  | convert raw => exact Laws.EncodesLegally.convert raw
  | send samples => exact Laws.EncodesLegally.send samples
  | frame raw => exact Laws.EncodesLegally.frame raw
  | close => exact Laws.EncodesLegally.close

/-- The length conditions of 30_encoding.md rule R74 (e), as a disjunction. -/
theorem illegalLength_iff (p : List Byte) : illegalLength p = true ↔
    ((packetOpc p = 1 ∨ packetOpc p = 3 ∨ packetOpc p = 7) ∧ p.length ≠ 1) ∨ (packetOpc p = 2 ∧ p.length < 3) ∨
      (packetOpc p = 5 ∧ (p.length - 1) % 2 = 1) := by
  simp only [illegalLength, Bool.or_eq_true, decide_eq_true_eq, or_assoc]

/-- A packet with a length its format does not have is illegal by clause (e) of 30_encoding.md rule R74. -/
theorem illegalLength_of_decodeOperands {b : Byte} {op : Op} (hb : opcodeOf b = some op) {operand : List Byte}
    {why : Illegal} (h : decodeOperands op b operand = .error why) : illegalLength (b :: operand) = true := by
  have hopc := packetOpc_of_opcodeOf hb operand
  rw [illegalLength_iff]
  cases op with
  | cfg =>
    cases operand with
    | nil => cases h
    | cons => exact .inl ⟨.inl hopc, by simp⟩
  | dest =>
    match operand, h with
    | [], _ => exact .inr (.inl ⟨hopc, by simp⟩)
    | [_], _ => exact .inr (.inl ⟨hopc, by simp⟩)
  | openSocket =>
    cases operand with
    | nil => cases h
    | cons => exact .inl ⟨.inr (.inl hopc), by simp⟩
  | convert => cases h
  | send =>
    cases hs : decodeSamples operand with
    | some xs => cases (decodeOperands_send_of_some hs b).symm.trans h
    | none => exact .inr (.inr ⟨hopc, length_odd_of_decodeSamples_none hs⟩)
  | frame => cases h
  | close =>
    cases operand with
    | nil => cases h
    | cons => exact .inl ⟨.inr (.inr hopc), by simp⟩

/-- A packet that the decoder rejects is illegal by one of the clauses of 30_encoding.md rule R74. -/
theorem packetIllegal_of_decode_error {p : List Byte} {why : Illegal} (h : decode p = .error why) :
    packetIllegal p = true := by
  cases p with
  | nil => rfl
  | cons b operand =>
    cases hb : opcodeOf b with
    | none =>
      have hill : (illegalOpcode (b :: operand) || illegalArg (b :: operand) || illegalReserved (b :: operand)) = true :=
        illegal_of_opcodeOf_none b hb
      rw [packetIllegal, Bool.or_assoc (illegalEmpty _), Bool.or_assoc (illegalEmpty _), hill, Bool.or_true,
        Bool.true_or]
    | some op =>
      rw [decode_cons_of_opcodeOf hb] at h
      rw [packetIllegal, illegalLength_of_decodeOperands hb h, Bool.or_true]

/-- The decoder rejects exactly the illegal packets: a packet that decodes is the packet of a command. -/
theorem packetIllegal_iff (p : List Byte) : packetIllegal p = true ↔ ∃ why, decode p = .error why := by
  refine ⟨fun hp => ?_, fun ⟨_, h⟩ => packetIllegal_of_decode_error h⟩
  cases h : decode p with
  | error why => exact ⟨why, rfl⟩
  | ok i =>
    obtain ⟨rfl, -⟩ := encodeGivesBackDecodedPacket p i h
    rw [packetIllegal_encode] at hp
    cases hp

/-- A step whose next input is no command rejects it, whatever the reason. -/
theorem step_of_rejected {s : State} {p : List Byte} {rest : List HostInput} {why : Illegal}
    (h : s.inputs = .packet p :: rest) (hd : decode p = .error why) :
    step s = .next (s.takeInput.raise .illegalCommand) := by
  have hf : s.fetch = .illegal why := by simp only [State.fetch, h, hd]
  rw [step, hf]
  rfl

/-- Settles O3: the decoder's rejections are rule R74's clauses, and a rejection's one effect is its response. -/
theorem illegalPacketsAreExactlyRejected : Obligations.IllegalPacketsAreExactlyRejected := by
  refine ⟨packetIllegal_iff, fun s p rest h hp => ?_⟩
  obtain ⟨why, hd⟩ := (packetIllegal_iff p).mp hp
  rw [step_of_rejected h hd, State.takeInput_of_inputs h]
  rfl

end Sys2Proof.Machine

/-! PROOFS. 40_setup.md: CFG, its packet (30_encoding.md rule R69) and its two outcomes (rule R90). -/

namespace Sys2Proof.Machine

/-- The fields of CFG's byte, each read back at its place (30_encoding.md rule R69). -/
theorem cfgByte_fields (fmt : SampleFormat) (out mon : Channel) :
    (cfgByte fmt out mon).extractLsb' 3 5 = 0b00010#5 ∧ (cfgByte fmt out mon).getLsbD 2 = (mon == .right) ∧
      (cfgByte fmt out mon).getLsbD 1 = (out == .right) ∧ (cfgByte fmt out mon).getLsbD 0 = (fmt == .int32Stereo) := by
  cases fmt <;> cases out <;> cases mon <;> decide

/-- Settles O16: the byte is `cfgByte`, and in each clause the value of `CVALID` leaves one outcome of `execCfg_cases`. -/
theorem cfgIsAcceptedOnce : Obligations.CfgIsAcceptedOnce := by
  intro fmt out mon s
  refine ⟨⟨cfgByte fmt out mon, encode_cfg fmt out mon, cfgByte_fields fmt out mon⟩, fun hv => ?_, fun hv => ?_⟩
  · obtain ⟨ht, -⟩ | ⟨-, e⟩ := execCfg_cases fmt out mon s
    · simp [hv] at ht
    · exact e
  · obtain ⟨-, e⟩ | ⟨hf, -⟩ := execCfg_cases fmt out mon s
    · exact e
    · simp [hv] at hf

end Sys2Proof.Machine

/-! PROOFS. 41_converter.md: normalisation (rule R103), the two results of a conversion (rules R104 to R107), CONVERT
(rule R108) and what the payload and the runs are in terms of the buffer's bytes (rule R110). -/

namespace Sys2Proof.Machine

/-! ## Normalisation -/

/-- The normalised value of a 32-bit sample is the quotient by 2^16, rounded down (41_converter.md rule R103). -/
theorem normalise_int32 (v : Int) : normalise .int32Stereo v = v / 65536 := rfl

/-- A 16-bit sample is its own normalised value (41_converter.md rule R103). -/
@[simp] theorem normalise_int16 (v : Int) : normalise .int16Stereo v = v := Int.ediv_one v

/-- The quotient by 2^16, rounded down, is encoded by the upper half of the 32-bit encoding (41_converter.md rule
R103). -/
theorem ofInt_ediv_eq_extractLsb' (v : Int) : BitVec.ofInt 16 (v / 65536) = (BitVec.ofInt 32 v).extractLsb' 16 16 := by
  apply BitVec.eq_of_toNat_eq
  simp only [BitVec.extractLsb'_toNat, BitVec.toNat_ofInt, Nat.shiftRight_eq_div_pow]
  omega

/-- Settles O8: the bounds are those of a division that rounds down, and the bits are the upper half of the encoding. -/
theorem normalisationKeepsTopSixteenBits : Obligations.NormalisationKeepsTopSixteenBits := by
  refine ⟨fun v hlo hhi => ?_, normalise_int16, rfl, rfl⟩
  rw [normalise_int32]
  refine ⟨?_, ?_, ?_, ?_, ofInt_ediv_eq_extractLsb' v⟩ <;> omega

/-! ## The two results of a conversion -/

/-- A channel has one value for each frame (41_converter.md rule R102). -/
@[simp] theorem channelValues_length (ord : ByteOrder) (fmt : SampleFormat) (raw : List Byte) (c : Channel) :
    (channelValues ord fmt raw c).length = numFrames fmt raw := by
  rw [channelValues, List.length_map, List.length_range]

/-- Value `i` of a channel is the sample of frame `i` (41_converter.md rule R102). -/
theorem channelValues_getElem? (ord : ByteOrder) {fmt : SampleFormat} {raw : List Byte} (c : Channel) {i : Nat}
    (h : i < numFrames fmt raw) : (channelValues ord fmt raw c)[i]? = some (sampleAt ord fmt raw c i) := by
  rw [channelValues, List.getElem?_map, List.getElem?_range h, Option.map_some]

/-- The mono sequence has one sample for each frame (41_converter.md rule R104). -/
@[simp] theorem monoOf_length (ord : ByteOrder) (c : CfgReg) (raw : List Byte) :
    (monoOf ord c raw).length = numFrames c.fmt raw := by
  rw [monoOf, List.length_map, channelValues_length]

/-- Mono sample `i` is the output channel's normalised value in frame `i` (41_converter.md rule R104). -/
theorem monoOf_getElem? (ord : ByteOrder) {c : CfgReg} {raw : List Byte} {i : Nat} (h : i < numFrames c.fmt raw) :
    (monoOf ord c raw)[i]? = some (normalise c.fmt (sampleAt ord c.fmt raw c.out i)) := by
  rw [monoOf, List.getElem?_map, channelValues_getElem? ord c.out h, Option.map_some]

/-- Settles O10: `Convert` always has a value (`convert_eq`), with `monoOf` as its first part. -/
theorem converterSelectsTheOutputChannel : Obligations.ConverterSelectsTheOutputChannel := by
  intro ord c raw _
  exact ⟨_, _, convert_eq ord c raw, monoOf_length ord c raw, fun _ hi => monoOf_getElem? ord hi⟩

/-- Settles O13: by `convert_eq` the first result does not mention the monitor, nor the second the output channel. -/
theorem outputAndDiagnosticsAreIndependent : Obligations.OutputAndDiagnosticsAreIndependent := by
  intro ord fmt o o' m m' v v' raw _
  constructor
  · rw [convert_eq, convert_eq]; rfl
  · rw [convert_eq, convert_eq]; rfl

/-! ## Maximal runs -/

/-- The runs of nothing are none. -/
@[simp] theorem maximalRuns_nil (vs : List Int) : MaximalRuns [] vs ↔ vs = [] := by
  simp [MaximalRuns, eq_comm]

/-- The first value is that of the first run. -/
theorem MaximalRuns.head?_eq {rs : List RepeatDiagnostic} {vs : List Int} (h : MaximalRuns rs vs) :
    vs.head? = rs.head?.map RepeatDiagnostic.value := by
  obtain ⟨rfl, hpos, -⟩ := h
  cases rs with
  | nil => rfl
  | cons r rs =>
    obtain ⟨n, hn⟩ := Nat.exists_eq_add_of_le' (hpos r List.mem_cons_self)
    simp [hn, List.replicate_succ]

/-- A list of maximal runs is a first run that is not empty, and the maximal runs of the values left, which do not go on
with the first run's value. -/
theorem maximalRuns_cons (r : RepeatDiagnostic) (rs : List RepeatDiagnostic) (vs : List Int) :
    MaximalRuns (r :: rs) vs ↔ 1 ≤ r.count ∧
      ∃ ws, vs = List.replicate r.count r.value ++ ws ∧ MaximalRuns rs ws ∧ ∀ w ∈ ws.head?, w ≠ r.value := by
  constructor
  · rintro ⟨rfl, hpos, hne⟩
    obtain ⟨hr, hpos⟩ := List.forall_mem_cons.mp hpos
    obtain ⟨hhead, hne⟩ := List.isChain_cons.mp hne
    have hrs : MaximalRuns rs (rs.flatMap fun r => List.replicate r.count r.value) := ⟨rfl, hpos, hne⟩
    refine ⟨hr, _, List.flatMap_cons, hrs, fun w hw => ?_⟩
    rw [hrs.head?_eq] at hw
    obtain ⟨r', hr', rfl⟩ := Option.mem_map.mp hw
    exact (hhead r' hr').symm
  · rintro ⟨hr, ws, rfl, hrs, hw⟩
    rw [hrs.head?_eq] at hw
    obtain ⟨rfl, hpos, hne⟩ := hrs
    exact ⟨List.flatMap_cons, List.forall_mem_cons.mpr ⟨hr, hpos⟩,
      List.isChain_cons.mpr ⟨fun r' hr' => (hw _ (Option.mem_map_of_mem _ hr')).symm, hne⟩⟩

/-- Every value list has a list of maximal runs: a value put in front either lengthens the first run or begins one. -/
theorem exists_maximalRuns (vs : List Int) : ∃ rs, MaximalRuns rs vs := by
  induction vs with
  | nil => exact ⟨[], (maximalRuns_nil []).mpr rfl⟩
  | cons v vs ih =>
    obtain ⟨rs, h⟩ := ih
    by_cases hv : ∀ w ∈ vs.head?, w ≠ v
    · exact ⟨⟨v, 1⟩ :: rs, (maximalRuns_cons _ _ _).mpr ⟨le_rfl, vs, rfl, h, hv⟩⟩
    · cases rs with
      | nil => simp [(maximalRuns_nil vs).mp h] at hv
      | cons r rs =>
        obtain rfl : r.value = v := by simpa [h.head?_eq] using hv
        obtain ⟨-, ws, rfl, hrs, hw⟩ := (maximalRuns_cons r rs vs).mp h
        exact ⟨⟨r.value, r.count + 1⟩ :: rs, (maximalRuns_cons _ _ _).mpr ⟨Nat.le_add_left 1 _, ws, rfl, hrs, hw⟩⟩

/-! ## The repeat scan -/

/-- The scan counts each further value of the current run (41_converter.md rule R105). -/
theorem scanFrom_replicate (v : Int) (n k : Nat) (ws : List Int) :
    scanFrom (some ⟨v, n⟩) (List.replicate k v ++ ws) = scanFrom (some ⟨v, n + k⟩) ws := by
  induction k generalizing n with
  | zero => rfl
  | succ k ih =>
    rw [List.replicate_succ, List.cons_append, scanFrom, if_pos rfl, ih, Nat.add_right_comm, Nat.add_assoc]

/-- The scan closes the current run at the end of the values and at a different value, and starts afresh there. -/
theorem scanFrom_of_head_ne {r : RepeatRun} {ws : List Int} (h : ∀ w ∈ ws.head?, w ≠ r.last) :
    scanFrom (some r) ws = closeRun r ++ scanFrom none ws := by
  cases ws with
  | nil => exact (List.append_nil _).symm
  | cons w ws => exact if_neg (h w rfl)

/-- Closing a run reports it if it is due. -/
theorem reported_cons (r : RepeatDiagnostic) (rs : List RepeatDiagnostic) :
    reported (r :: rs) = closeRun ⟨r.value, r.count⟩ ++ reported rs := by
  by_cases h : 5 ≤ r.count
  · simp [reported, closeRun, h]
  · simp [reported, closeRun, h]

/-- The scan reports exactly the maximal runs that are due, in order (41_converter.md rule R105). -/
theorem MaximalRuns.scanFrom_eq {rs : List RepeatDiagnostic} {vs : List Int} (h : MaximalRuns rs vs) :
    scanFrom none vs = reported rs := by
  induction rs generalizing vs with
  | nil => rw [(maximalRuns_nil vs).mp h]; rfl
  | cons r rs ih =>
    obtain ⟨hr, ws, rfl, hrs, hw⟩ := (maximalRuns_cons r rs vs).mp h
    obtain ⟨n, hn⟩ := Nat.exists_eq_add_of_le hr
    rw [hn, List.replicate_add, List.append_assoc, List.replicate_one, List.singleton_append, scanFrom,
      scanFrom_replicate, ← hn, scanFrom_of_head_ne hw, ih hrs, reported_cons]

/-- The diagnostics of `Convert`, in terms of any list of the monitored values' maximal runs. -/
theorem convert_diags {ord : ByteOrder} {c : CfgReg} {raw : List Byte} {rs : List RepeatDiagnostic}
    (h : MaximalRuns rs (channelValues ord c.fmt raw c.mon)) : (convert ord c raw).map Prod.snd = some (reported rs) := by
  rw [convert_eq, Option.map_some, h.scanFrom_eq]

/-- Settles O11: there is a list of maximal runs, and the scan reports those of it that are due. -/
theorem oneDiagnosticPerMaximalRun : Obligations.OneDiagnosticPerMaximalRun := fun _ _ _ _ =>
  ⟨exists_maximalRuns _, fun _ h => convert_diags h⟩

/-! ## CONVERT -/

/-- Settles O21: the clauses are the outcomes of the converter half. -/
theorem convertDeliversMonoAndDiagnostics : Obligations.ConvertDeliversMonoAndDiagnostics := by
  intro raw s
  refine ⟨rfl, fun hv => ?_, fun hv hl => ?_, fun rs hv hl h => ?_⟩
  · rw [exec_convert, convertThen_spec, if_pos hv]
    rfl
  · rw [exec_convert, convertThen_spec, if_neg (by simp [hv]), if_pos hl]
    rfl
  · rw [exec_convert, convertThen_spec, if_neg (by simp [hv]), if_neg (not_not.mpr hl), h.scanFrom_eq, State.finish,
      State.emit_emit, State.emit_emit, List.append_assoc]
    simp [State.emit]

/-- The empty buffer has no frames (41_converter.md rule R107). -/
theorem numFrames_nil (fmt : SampleFormat) : numFrames fmt [] = 0 := Nat.zero_div _

/-- The empty buffer passes the length check (41_converter.md rule R107). -/
theorem lengthOK_nil (fmt : SampleFormat) : lengthOK fmt [] = true := by
  rw [lengthOK, List.length_nil, Nat.zero_mod]; rfl

/-- The empty buffer has no sample in any channel. -/
theorem channelValues_nil (ord : ByteOrder) (fmt : SampleFormat) (c : Channel) : channelValues ord fmt [] c = [] :=
  List.eq_nil_of_length_eq_zero ((channelValues_length ord fmt [] c).trans (numFrames_nil fmt))

/-- The empty buffer has an empty mono sequence (41_converter.md rule R107). -/
theorem monoOf_nil (ord : ByteOrder) (c : CfgReg) : monoOf ord c [] = [] := by
  rw [monoOf, channelValues_nil, List.map_nil]

/-- Settles O12: without frames no channel has values, so CONVERT is the case of `convertDeliversMonoAndDiagnostics` that
has no runs. -/
theorem emptyBufferConvertsToNothing : Obligations.EmptyBufferConvertsToNothing := by
  refine ⟨fun ord c => ⟨lengthOK_nil _, numFrames_nil _, ?_⟩, fun s hv => ?_⟩
  · rw [convert_eq, monoOf_nil, channelValues_nil]
    rfl
  · obtain ⟨-, -, -, hok⟩ := convertDeliversMonoAndDiagnostics [] s
    rw [hok [] hv (Nat.zero_mod _) ((maximalRuns_nil _).mpr (channelValues_nil _ _ _)), monoOf_nil]
    simp [repeatLogs, reported]

/-! ## Payload bytes -/

/-- Payload bytes `2k` and `2k+1` are the stored bytes of sample `k` (42_forwarder.md rule R133). -/
theorem serialize_getElem? (ord : ByteOrder) (xs : List Int) (k : Nat) {j : Nat} (hj : j < 2) :
    (serialize ord xs)[2 * k + j]? = xs[k]?.bind fun x => (storeSample ord x)[j]? := by
  induction xs generalizing k with
  | nil => rfl
  | cons x xs ih =>
    rw [serialize_cons]
    cases k with
    | zero => rw [List.getElem?_append_left (by rw [storeSample_length]; omega)]; simp
    | succ k =>
      rw [List.getElem?_append_right (by rw [storeSample_length]; omega), storeSample_length,
        show 2 * (k + 1) + j - 2 = 2 * k + j by omega, ih, List.getElem?_cons_succ]

/-- Where, among the bytes of a sample, its two highest bytes begin. -/
def topOffset (fmt : SampleFormat) : ByteOrder → Nat
  | .little => bytesPerSample fmt - 2
  | .big => 0

/-- The encoding of a normalised sample is the upper 16 bits of the number read (41_converter.md rule R103). -/
theorem enc16_normalise_sext (fmt : SampleFormat) {u : Nat} (h : u < 2 ^ (8 * bytesPerSample fmt)) :
    enc 16 (normalise fmt (sext (8 * bytesPerSample fmt) u)) = u / 2 ^ shift fmt := by
  cases fmt with
  | int16Stereo => rw [normalise_int16, shift, pow_zero, Nat.div_one]; exact enc16_sext h
  | int32Stereo =>
    simp only [bytesPerSample, Nat.reduceMul, Nat.reducePow] at h ⊢
    rw [normalise_int32, shift]
    unfold sext enc
    split <;> omega

/-- The upper 16 bits of the number that a sample's bytes spell are spelled by its two highest bytes. -/
theorem uintOrd_div_shift (ord : ByteOrder) (fmt : SampleFormat) {bs : List Byte}
    (h : bs.length = bytesPerSample fmt) :
    uintOrd ord bs / 2 ^ shift fmt = uintOrd ord ((bs.drop (topOffset fmt ord)).take 2) := by
  match fmt, bs, h with
  | .int16Stereo, [_, _], _ => cases ord <;> exact Nat.div_one _
  | .int32Stereo, [a, b, c, d], _ =>
    cases ord with
    | little =>
      simp only [uintOrd, uintLittle, shift, topOffset, bytesPerSample, List.drop_succ_cons, List.drop_zero,
        List.take_succ_cons, List.take_zero]
      omega
    | big =>
      simp only [uintOrd, uintBig, shift, topOffset, List.length_cons, List.length_nil, List.drop_zero,
        List.take_succ_cons, List.take_zero]
      omega

/-- A sample whose encoding two bytes spell is stored as those bytes (20_memory.md rule R46). -/
theorem storeSample_of_enc {ord : ByteOrder} {x : Int} {b b' : Byte} (h : enc 16 x = uintOrd ord [b, b']) :
    storeSample ord x = [b, b'] := by
  cases ord with
  | little =>
    have hx : enc 16 x = unpack16 b b' := by simpa [uintOrd, uintLittle, unpack16] using h
    exact (congrArg packet16 hx).trans (packet16_unpack16 b b')
  | big =>
    have hx : enc 16 x = unpack16 b' b := by simpa [uintOrd, uintBig, unpack16, add_comm, mul_comm] using h
    exact congrArg List.reverse ((congrArg packet16 hx).trans (packet16_unpack16 b' b))

/-- Two bytes from the offset of a sample's highest bytes are the sample's last or first two. -/
theorem topOffset_add_two_le (fmt : SampleFormat) (ord : ByteOrder) : topOffset fmt ord + 2 ≤ bytesPerSample fmt := by
  cases fmt <;> cases ord <;> decide

/-- Loading, normalising and storing a sample copies its two highest bytes, in the order in which they stand. -/
theorem storeSample_normalise_sext (ord : ByteOrder) (fmt : SampleFormat) {bs : List Byte}
    (h : bs.length = bytesPerSample fmt) :
    storeSample ord (normalise fmt (sext (8 * bytesPerSample fmt) (uintOrd ord bs))) =
      (bs.drop (topOffset fmt ord)).take 2 := by
  have hlen : ((bs.drop (topOffset fmt ord)).take 2).length = 2 :=
    length_take_drop (h ▸ topOffset_add_two_le fmt ord)
  have henc := (enc16_normalise_sext fmt (h ▸ uintOrd_lt ord bs)).trans (uintOrd_div_shift ord fmt h)
  obtain ⟨b, b', hb⟩ := List.length_eq_two.mp hlen
  rw [hb] at henc ⊢
  exact storeSample_of_enc henc

/-- A sample of a frame of the buffer has as many bytes as the format says. -/
theorem sampleBytes_length {fmt : SampleFormat} {raw : List Byte} (c : Channel) {i : Nat} (h : i < numFrames fmt raw) :
    (sampleBytes fmt raw c i).length = bytesPerSample fmt := length_take_drop (sampleOffset_le c h)

/-- Byte `j` of a sample is the buffer's byte at the sample's offset and `j` (20_memory.md rule R43). -/
theorem sampleBytes_getElem? (fmt : SampleFormat) (raw : List Byte) (c : Channel) (i : Nat) {j : Nat}
    (h : j < bytesPerSample fmt) : (sampleBytes fmt raw c i)[j]? = raw[sampleOffset fmt c i + j]? := by
  rw [sampleBytes, List.getElem?_take_of_lt h, List.getElem?_drop, sampleOffset]

/-- Payload bytes `2k` and `2k+1` are the two highest bytes of the output channel's sample in frame `k`, copied
(41_converter.md rule R110 (a) to (c)). -/
theorem payload_getElem? (ord : ByteOrder) {c : CfgReg} {raw : List Byte} {k j : Nat} (hk : k < numFrames c.fmt raw)
    (hj : j < 2) : (serialize ord (monoOf ord c raw))[2 * k + j]? =
      raw[sampleOffset c.fmt c.out k + (topOffset c.fmt ord + j)]? := by
  have htop := topOffset_add_two_le c.fmt ord
  rw [serialize_getElem? ord _ k hj, monoOf_getElem? ord hk, Option.bind_some, sampleAt,
    storeSample_normalise_sext ord c.fmt (sampleBytes_length c.out hk), List.getElem?_take_of_lt hj, List.getElem?_drop,
    sampleBytes_getElem? _ _ _ _ (by omega)]

/-- The two payload bytes of frame `k`, both copied from the place where the sample's two highest bytes begin. -/
theorem payload_bytes (ord : ByteOrder) {c : CfgReg} {raw : List Byte} {k off : Nat} (hk : k < numFrames c.fmt raw)
    (hoff : sampleOffset c.fmt c.out k + topOffset c.fmt ord = off) :
    (serialize ord (monoOf ord c raw))[2 * k]? = raw[off]? ∧
      (serialize ord (monoOf ord c raw))[2 * k + 1]? = raw[off + 1]? :=
  hoff ▸ ⟨payload_getElem? ord hk Nat.two_pos, payload_getElem? ord hk Nat.one_lt_two⟩

/-- The payload has two bytes for each frame (41_converter.md rule R110 (e)). -/
theorem payload_length (ord : ByteOrder) (c : CfgReg) (raw : List Byte) :
    (serialize ord (monoOf ord c raw)).length = 2 * (raw.length / frameSize c.fmt) := by
  rw [serialize_length, monoOf_length, numFrames]

/-- In 16-bit frames a sample is two bytes and a frame four (20_memory.md rule R43). -/
theorem sampleOffset_int16 (c : Channel) (i : Nat) : sampleOffset .int16Stereo c i = 4 * i + 2 * channelCode c := by
  rw [Nat.mul_comm, Nat.mul_comm 2]; rfl

/-- In 32-bit frames a sample is four bytes and a frame eight (20_memory.md rule R43). -/
theorem sampleOffset_int32 (c : Channel) (i : Nat) : sampleOffset .int32Stereo c i = 8 * i + 4 * channelCode c := by
  rw [Nat.mul_comm, Nat.mul_comm 4]; rfl

/-- Settles O14: `payload_length` and `payload_bytes` at the offsets of each format; a 16-bit sample has no other bytes
than its two highest, so there the order does not matter. -/
theorem payloadBytesAreCopiedFromTheBuffer : Obligations.PayloadBytesAreCopiedFromTheBuffer := by
  rintro ord ⟨fmt, out, mon, cvalid⟩ raw hlen
  refine ⟨?_, ?_⟩
  · rintro rfl
    refine ⟨?_, fun k hk => payload_bytes ord hk ?_⟩
    · rw [payload_length]
      change raw.length % 4 = 0 at hlen
      change 2 * (raw.length / 4) = raw.length / 2
      omega
    · cases ord <;> exact sampleOffset_int16 out k
  · rintro rfl
    refine ⟨?_, fun k hk => ?_⟩
    · rw [payload_length]
      change raw.length % 8 = 0 at hlen
      change 2 * (raw.length / 8) = raw.length / 4
      omega
    · cases ord with
      | little => exact payload_bytes .little hk (congrArg (· + 2) (sampleOffset_int32 out k))
      | big => exact payload_bytes .big hk (sampleOffset_int32 out k)

/-! ## Runs and byte order -/

/-- In order Little the number that bytes spell has them as its digits to the base 256, the lowest first. -/
theorem uintLittle_eq_ofDigits (bs : List Byte) : uintLittle bs = Nat.ofDigits 256 (bs.map BitVec.toNat) := by
  induction bs with
  | nil => rfl
  | cons b bs ih => rw [uintLittle, ih, List.map_cons, Nat.ofDigits_cons]

/-- Bytes spell in order Big what they spell, read backwards, in order Little (20_memory.md rule R42). -/
theorem uintBig_eq_ofDigits (bs : List Byte) : uintBig bs = Nat.ofDigits 256 (bs.reverse.map BitVec.toNat) := by
  induction bs with
  | nil => rfl
  | cons b bs ih =>
    rw [uintBig, ih, List.reverse_cons, List.map_append, Nat.ofDigits_append, List.map_singleton, Nat.ofDigits_singleton,
      List.length_map, List.length_reverse, add_comm, mul_comm]

/-- Digits to the base 256 that are bytes are told apart by the number they spell. -/
theorem bytes_eq_of_ofDigits_eq {bs bs' : List Byte} (hlen : bs.length = bs'.length)
    (h : Nat.ofDigits 256 (bs.map BitVec.toNat) = Nat.ofDigits 256 (bs'.map BitVec.toNat)) : bs = bs' := by
  have hlt (cs : List Byte) : ∀ n ∈ cs.map BitVec.toNat, n < 256 :=
    List.forall_mem_map.mpr fun b _ => b.isLt
  exact List.map_injective_iff.mpr (fun _ _ => BitVec.eq_of_toNat_eq)
    (Nat.ofDigits_inj_of_len_eq (by decide) (by simpa using hlen) (hlt bs) (hlt bs') h)

/-- Byte sequences of one length are told apart by the number they spell, in either order. -/
theorem uintOrd_inj {ord : ByteOrder} {bs bs' : List Byte} (hlen : bs.length = bs'.length) :
    uintOrd ord bs = uintOrd ord bs' ↔ bs = bs' := by
  refine ⟨fun h => ?_, congrArg _⟩
  cases ord with
  | little =>
    simp only [uintOrd, uintLittle_eq_ofDigits] at h
    exact bytes_eq_of_ofDigits_eq hlen h
  | big =>
    simp only [uintOrd, uintBig_eq_ofDigits] at h
    exact List.reverse_injective (bytes_eq_of_ofDigits_eq (by simpa using hlen) h)

/-- Numbers of `n` bits are told apart by their two's-complement readings. -/
theorem sext_inj {n u v : Nat} (hu : u < 2 ^ n) (hv : v < 2 ^ n) : sext n u = sext n v ↔ u = v := by
  refine ⟨fun h => ?_, congrArg _⟩
  have := congrArg (· % (2 : Int) ^ n) h
  simpa only [sext_emod hu, sext_emod hv, Nat.cast_inj] using this

/-- Two samples of a channel are equal exactly when their bytes are (41_converter.md rule R110 (d)). -/
theorem sampleAt_inj (ord : ByteOrder) {fmt : SampleFormat} {raw : List Byte} (c : Channel) {i j : Nat}
    (hi : i < numFrames fmt raw) (hj : j < numFrames fmt raw) :
    sampleAt ord fmt raw c i = sampleAt ord fmt raw c j ↔ sampleBytes fmt raw c i = sampleBytes fmt raw c j := by
  have hli := sampleBytes_length c hi
  have hlj := sampleBytes_length c hj
  rw [sampleAt, sampleAt, sext_inj (hli ▸ uintOrd_lt ord _) (hlj ▸ uintOrd_lt ord _), uintOrd_inj (hli.trans hlj.symm)]

/-- The maximal runs of the values are the groups into which `List.splitBy` cuts them where they change. -/
theorem MaximalRuns.splitBy_eq {rs : List RepeatDiagnostic} {vs : List Int} (h : MaximalRuns rs vs) :
    vs.splitBy (· == ·) = rs.map fun r => List.replicate r.count r.value := by
  obtain ⟨rfl, hpos, hne⟩ := h
  have hnil : ∀ r ∈ rs, List.replicate r.count r.value ≠ [] := fun r hr => by
    have := hpos r hr
    simp; omega
  refine List.splitBy_eq_iff.mpr ⟨List.flatMap_def, ?_, ?_, ?_⟩
  · exact fun h => (List.mem_map.mp h).elim fun r ⟨hr, e⟩ => hnil r hr e
  · exact List.forall_mem_map.mpr fun r _ => List.isChain_replicate_of_rel _ (beq_self_eq_true _)
  · refine (List.isChain_map _).mpr (hne.imp_of_mem_imp fun a b ha hb hab => ⟨hnil a ha, hnil b hb, ?_⟩)
    simpa using hab

/-- Cutting the images of a list cuts the list where the images change. -/
theorem splitBy_map {α β : Type} (f : α → β) (r : β → β → Bool) (xs : List α) :
    (xs.map f).splitBy r = (xs.splitBy fun x y => r (f x) (f y)).map (List.map f) := by
  refine List.splitBy_eq_iff.mpr ⟨?_, ?_, ?_, ?_⟩
  · rw [← List.map_flatten, List.flatten_splitBy]
  · simp
  · exact List.forall_mem_map.mpr fun m hm => (List.isChain_map f).mpr (List.isChain_of_mem_splitBy hm)
  · refine (List.isChain_map _).mpr ((List.isChain_getLast_head_splitBy _ xs).imp ?_)
    rintro a b ⟨ha, hb, h⟩
    exact ⟨by simpa using ha, by simpa using hb, by simpa using h⟩

/-- The lengths of the stretches of frames in which a channel's sample keeps its bytes. -/
def byteRunLengths (fmt : SampleFormat) (raw : List Byte) (c : Channel) : List Nat :=
  ((List.finRange (numFrames fmt raw)).splitBy fun i j : Fin _ =>
    sampleBytes fmt raw c i == sampleBytes fmt raw c j).map List.length

/-- In either order the lengths of the maximal runs of a channel's values are those of the runs of its samples' bytes
(41_converter.md rule R110 (d)). -/
theorem MaximalRuns.counts_eq {ord : ByteOrder} {fmt : SampleFormat} {raw : List Byte} {c : Channel}
    {rs : List RepeatDiagnostic} (h : MaximalRuns rs (channelValues ord fmt raw c)) :
    rs.map RepeatDiagnostic.count = byteRunLengths fmt raw c := by
  have hvals : channelValues ord fmt raw c =
      (List.finRange (numFrames fmt raw)).map fun i : Fin _ => sampleAt ord fmt raw c i := by
    rw [channelValues, ← List.map_coe_finRange_eq_range, List.map_map]; rfl
  have hsame : (fun i j : Fin (numFrames fmt raw) => sampleAt ord fmt raw c i == sampleAt ord fmt raw c j) =
      fun i j : Fin (numFrames fmt raw) => sampleBytes fmt raw c i == sampleBytes fmt raw c j := by
    funext i j
    rw [Bool.eq_iff_iff, beq_iff_eq, beq_iff_eq, sampleAt_inj ord c i.isLt j.isLt]
  calc rs.map RepeatDiagnostic.count
      = (rs.map fun r => List.replicate r.count r.value).map List.length := by simp
    _ = ((channelValues ord fmt raw c).splitBy (· == ·)).map List.length := by rw [h.splitBy_eq]
    _ = byteRunLengths fmt raw c := by rw [hvals, splitBy_map, hsame, byteRunLengths]; simp

/-- The counts of the runs that are due depend on the lengths of the runs only. -/
theorem counts_reported (rs : List RepeatDiagnostic) :
    (reported rs).map RepeatDiagnostic.count = (rs.map RepeatDiagnostic.count).filter fun n => decide (5 ≤ n) := by
  rw [List.filter_map]; rfl

/-- The counts of the diagnostics, in terms of the buffer's bytes alone. -/
theorem convert_counts (ord : ByteOrder) (c : CfgReg) (raw : List Byte) :
    (convert ord c raw).map (fun r => r.2.map RepeatDiagnostic.count) =
      some ((byteRunLengths c.fmt raw c.mon).filter fun n => decide (5 ≤ n)) := by
  obtain ⟨rs, h⟩ := exists_maximalRuns (channelValues ord c.fmt raw c.mon)
  rw [convert_eq, Option.map_some, h.scanFrom_eq, counts_reported, h.counts_eq]

/-- Settles O15: whichever the order, the runs and the counts are given by the samples' bytes. -/
theorem runsDoNotDependOnByteOrder : Obligations.RunsDoNotDependOnByteOrder := by
  intro fmt raw _
  refine ⟨fun ord c i j hi hj => sampleAt_inj ord c hi hj, fun c rl rb hl hb => ?_, fun o m v => ?_⟩
  · rw [hl.counts_eq, hb.counts_eq]
  · rw [convert_counts, convert_counts]

end Sys2Proof.Machine

/-! PROOFS. 42_forwarder.md: the payload (rule R133), the four commands of the forwarder (rules R131, R132, R134, R135),
its state machine (rule R130) and its requests with their answers (rules R136 to R138). -/

namespace Sys2Proof.Machine

/-! ## The payload -/

/-- The two packet bytes of a 16-bit word are its low byte and its high byte. -/
theorem packet16_toNat (w : BitVec 16) : packet16 w.toNat = [w.extractLsb' 0 8, w.extractLsb' 8 8] := by
  rw [packet16, BitVec.extractLsb', BitVec.extractLsb', Nat.shiftRight_zero, Nat.shiftRight_eq_div_pow]

/-- In order Little a sample is stored as in a packet, low byte first (20_memory.md rule R46). -/
theorem storeSample_little (x : Int) :
    storeSample .little x = [(BitVec.ofInt 16 x).extractLsb' 0 8, (BitVec.ofInt 16 x).extractLsb' 8 8] :=
  packet16_toNat (BitVec.ofInt 16 x)

/-- In order Big a sample is stored high byte first (20_memory.md rule R46). -/
theorem storeSample_big (x : Int) :
    storeSample .big x = [(BitVec.ofInt 16 x).extractLsb' 8 8, (BitVec.ofInt 16 x).extractLsb' 0 8] :=
  congrArg List.reverse (storeSample_little x)

/-- The two payload bytes of a sample are its stored bytes (42_forwarder.md rule R133). -/
theorem serialize_bytes {ord : ByteOrder} {xs : List Int} {k : Nat} {x : Int} {b b' : Byte} (hx : xs[k]? = some x)
    (hb : storeSample ord x = [b, b']) :
    (serialize ord xs)[2 * k]? = some b ∧ (serialize ord xs)[2 * k + 1]? = some b' := by
  have hget {j : Nat} (hj : j < 2) : (serialize ord xs)[2 * k + j]? = [b, b'][j]? := by
    rw [serialize_getElem? ord xs k hj, hx, Option.bind_some, hb]
  exact ⟨hget Nat.two_pos, hget Nat.one_lt_two⟩

/-- Settles O9: the length is `serialize_length`, and the bytes of a sample are stored in the order `ORD`. -/
theorem serializeStoresTwoBytesPerSample : Obligations.SerializeStoresTwoBytesPerSample := by
  refine ⟨serialize_nil, fun ord xs => ⟨serialize_length ord xs, fun k x hx => ?_⟩⟩
  cases ord with
  | little => exact serialize_bytes hx (storeSample_little x)
  | big => exact serialize_bytes hx (storeSample_big x)

/-! ## OPEN -/

section
variable {s : State}

/-- OPEN in `Configured` begins with the creation of the socket (42_forwarder.md rule R132). -/
theorem exec_openSocket_of_configured (hf : s.fstate = .configured) : exec .openSocket s = .next (askCreate s) :=
  congrArg Host.Outcome.next (if_neg (not_not.mpr hf))

/-- What OPEN's reuse step logs for an answer (42_forwarder.md rule R132). -/
abbrev ReuseLogs (a : OptionAnswer) (warning : List Event) : Prop :=
  a = .ok ∧ warning = [] ∨ ∃ code, a = .err code ∧ warning = [.log .warning (.reuseFailed code)]

/-- OPEN's reuse step: one request, and the warning that goes with the answer. -/
theorem askReuse_of_reuseLogs {warning : List Event} (hw : ReuseLogs (optionAnswer s.nextDraw) warning) :
    askReuse s = (s.asked (.setReuse s.handle)).emit warning := by
  obtain ⟨ha, rfl⟩ | ⟨code, ha, rfl⟩ := hw
  · simp only [askReuse, ha, State.emit_nil]
  · simp only [askReuse, ha]; rfl

/-- OPEN's non-blocking step fails: `Failed`, with the socket kept (42_forwarder.md rule R132). -/
theorem askNonBlock_of_err {code : Code} (ha : optionAnswer s.nextDraw = .err code) :
    askNonBlock s = ((s.asked (.setNonBlock s.handle)).writeFState .failed).raise (.socketError .nonBlock code) := by
  simp only [askNonBlock, ha]

/-- OPEN's non-blocking step succeeds: `Open` (42_forwarder.md rule R132). -/
theorem askNonBlock_of_ok (ha : optionAnswer s.nextDraw = .ok) :
    askNonBlock s = ((s.asked (.setNonBlock s.handle)).writeFState .opened).finish := by
  simp only [askNonBlock, ha]

/-- The state in which OPEN has made its first two requests, with what the reuse step logged. -/
def State.reuseAsked (h : Handle) (warning : List Event) (s : State) : State :=
  (((s.asked .create).holdSocket h).asked (.setReuse h)).emit warning

/-- OPEN in which the socket is created goes on to the non-blocking step, whatever the reuse step was answered. -/
theorem askCreate_of_reuseLogs {h : Handle} {warning : List Event} (ha : createAnswer (s.upcoming 0) = .createOk h)
    (hw : ReuseLogs (optionAnswer (s.upcoming 1)) warning) : askCreate s = askNonBlock (s.reuseAsked h warning) := by
  have hw' : ReuseLogs (optionAnswer ((s.asked .create).holdSocket h).nextDraw) warning := by
    simpa [State.nextDraw_eq_upcoming] using hw
  rw [askCreate_of_createOk (s.nextDraw_eq_upcoming ▸ ha), askReuse_of_reuseLogs hw']
  rfl

end

/-- The answer to OPEN's third request is the third draw. -/
@[simp] theorem State.reuseAsked_nextDraw (h : Handle) (warning : List Event) (s : State) :
    (s.reuseAsked h warning).nextDraw = s.upcoming 2 := by
  simp [State.reuseAsked, State.nextDraw_eq_upcoming]

/-- The end of OPEN after its three requests: three draws are taken, the socket is held with the handle that was
answered, and the response with its log event comes last. -/
theorem State.openAsked_end (h : Handle) (warning : List Event) (f : FState) (x : Status) (s : State) :
    ((s.openAsked h warning).writeFState f).raise x =
    { s with
      fstate := f
      sock := true
      handle := h
      transport := s.transport.drop 3
      drawCount := s.drawCount + 3
      events := s.events ++ [.request .create, .request (.setReuse h)] ++ warning ++
        .request (.setNonBlock h) :: errorEvents x } := by
  have htail : s.transport.tail.tail.tail = s.transport.drop 3 := by simp only [← List.drop_one, List.drop_drop]
  simp [htail, State.openAsked, State.asked, State.afterDraw, State.emit, State.holdSocket, State.writeFState,
    State.raise]

/-- The end of OPEN after a creation that failed: one draw is taken, and no register but `FSTATE` is written. -/
theorem State.createAsked_end (x : Status) (s : State) :
    ((s.asked .create).writeFState .failed).raise x =
    { s with
      fstate := .failed
      transport := s.transport.drop 1
      drawCount := s.drawCount + 1
      events := s.events ++ .request .create :: errorEvents x } := by
  simp [State.asked, State.afterDraw, State.emit, State.writeFState, State.raise]

/-- Settles O18: outside `Configured` a rejection; in it the answer to each request selects the next step. -/
theorem openCreatesTheSocket : Obligations.OpenCreatesTheSocket := by
  intro s
  refine ⟨rfl, fun hf => congrArg Host.Outcome.next (if_pos hf), fun code hf ha => ?_, fun h warning hf ha hw => ?_⟩
  · rw [exec_openSocket_of_configured hf, askCreate_of_createErr (s.nextDraw_eq_upcoming ▸ ha)]
    exact congrArg Host.Outcome.next (s.createAsked_end (.socketError .create code))
  · rw [exec_openSocket_of_configured hf, askCreate_of_reuseLogs ha hw]
    refine ⟨fun code he => ?_, fun hok => ?_⟩
    · rw [askNonBlock_of_err (by rwa [State.reuseAsked_nextDraw])]
      exact congrArg Host.Outcome.next (s.openAsked_end h warning .failed (.socketError .nonBlock code))
    · rw [askNonBlock_of_ok (by rwa [State.reuseAsked_nextDraw])]
      exact congrArg Host.Outcome.next (s.openAsked_end h warning .opened .ok)

/-! ## SEND -/

/-- Settles O19: the output of SEND is its request and what the status of the answer brings (`sendStatus`). -/
theorem sendMakesOneRequest : Obligations.SendMakesOneRequest := by
  intro samples s
  refine ⟨rfl, fun hf => congrArg Host.Outcome.next (sendSamples_of_not_opened hf samples), fun hf => ?_⟩
  have hexec : exec (.send samples) s = .next (sendSamples samples s) := rfl
  rw [hexec, sendSamples_of_opened hf, State.asked_eq_output rfl, State.raise_output, State.nextDraw_eq_upcoming]
  refine ⟨fun code ha => ?_, fun n ha hn => ?_, fun ha => ?_⟩
  · rw [ha]; rfl
  · rw [ha, sendStatus, if_neg hn]; rfl
  · rw [ha, sendStatus, if_pos rfl]; rfl

/-! ## DEST and CLOSE -/

/-- Settles O17: each outcome of `execDest_cases` is one clause, and its conditions exclude the two others. -/
theorem destStoresTheResolvedDestination : Obligations.DestStoresTheResolvedDestination := by
  intro text port s
  refine ⟨by rw [encode, packet16_toNat], ?_⟩
  obtain ⟨hf, e⟩ | ⟨hf, hp, e⟩ | ⟨a, hf, hp, e⟩ := execDest_cases text port s
  · exact ⟨fun _ => e, fun h => absurd h hf, fun _ h => absurd h hf⟩
  · exact ⟨fun h => absurd hf h, fun _ _ => e, fun b _ h => nomatch hp.symm.trans h⟩
  · exact ⟨fun h => absurd hf h, fun _ h => (nomatch hp.symm.trans h), fun b _ h => by
      cases hp.symm.trans h
      exact e⟩

/-- Releasing a socket does not move `FSTATE`. -/
@[simp] theorem releaseHeld_fstate (s : State) : (releaseHeld s).fstate = s.fstate := by
  rw [releaseHeld_eq_output]; rfl

/-- CLOSE releases what is held and moves to `Closed`, or stays in `Failed` (42_forwarder.md rule R135). -/
theorem exec_close (s : State) : exec .close s =
    .next ((releaseHeld s).writeFState (if s.fstate = .failed then .failed else .closed)).finish := by
  refine congrArg (fun t : State => Host.Outcome.next t.finish) ?_
  by_cases hf : s.fstate = .failed
  · have hkept : (releaseHeld s).writeFState .failed = releaseHeld s := by
      rw [← hf, ← releaseHeld_fstate]; rfl
    rw [if_neg (not_not.mpr hf), if_pos hf, hkept]
  · rw [if_pos hf, if_neg hf]

/-- Settles O20: what `releaseHeld` does depends on `SOCK` alone. -/
theorem closeReleasesAHeldSocket : Obligations.CloseReleasesAHeldSocket := by
  intro s
  refine ⟨rfl, fun hk => ?_, fun hk => ?_⟩
  · rw [exec_close, releaseHeld_of_sock hk]
    simp [State.emit, State.dropSocket, State.writeFState, State.finish]
  · rw [exec_close, releaseHeld_of_not_sock hk]
    rfl

/-! ## The state machine -/

/-- Every state is among its own successors (42_forwarder.md rule R130). -/
theorem FState.self_mem_successors (f : FState) : f ∈ f.successors := by cases f <;> decide

/-- `Failed` is a successor of `Configured` and of itself alone. -/
theorem FState.eq_of_failed_mem_successors {f : FState} :
    .failed ∈ f.successors → f = .failed ∨ f = .configured := by
  cases f <;> decide

/-- `Failed` and `Closed` have no successor but themselves. -/
theorem FState.eq_of_mem_successors {f g : FState} (hf : f = .failed ∨ f = .closed) (hg : g ∈ f.successors) : g = f := by
  obtain rfl | rfl := hf <;> exact List.mem_singleton.mp hg

/-- A command moves `FSTATE` along the table (42_forwarder.md rule R130). -/
theorem Writes.fstate_mem_successors {s r : State} {i : Instr} {es : List Event} (h : Writes s i es r) :
    r.fstate ∈ s.fstate.successors := by
  cases h with
  | nothing | sends | cfg => exact s.fstate.self_mem_successors
  | dest hf => simp [hf, FState.successors]
  | createFails hf => simp [hf, FState.successors]
  | created hf ht => obtain rfl | rfl := ht <;> simp [hf, FState.successors]
  | close => cases hf : s.fstate <;> simp [FState.successors]

/-- Settles O33: the two other clauses are facts about the table. -/
theorem forwarderMovesAlongItsStateMachine : Obligations.ForwarderMovesAlongItsStateMachine := by
  intro s t hn h
  have hmem : t.fstate ∈ s.fstate.successors := by
    obtain rfl | rfl | ⟨i, es, r, hw, rfl⟩ := step_of_not_reset hn h
    · exact t.fstate.self_mem_successors
    · exact s.fstate.self_mem_successors
    · exact hw.fstate_mem_successors
  exact ⟨hmem, fun ht => FState.eq_of_failed_mem_successors (ht ▸ hmem), fun hs => FState.eq_of_mem_successors hs hmem⟩

/-! ## Requests and answers -/

/-- Writing the registers takes no draw. -/
theorem Writes.draws {s r : State} {i : Instr} {es : List Event} (h : Writes s i es r) :
    r.transport = s.transport ∧ r.drawCount = s.drawCount := by
  cases h <;> exact ⟨rfl, rfl⟩

/-- Settles O38: the draws are those of the output, and the requests those that go with what the command wrote. -/
theorem everyRequestIsMadeOnce : Obligations.EveryRequestIsMadeOnce := by
  intro i s t h
  obtain ⟨es, r, hw, rfl⟩ := writes_of_exec h
  obtain ⟨htransport, hcount⟩ := hw.draws
  have hnew : s.newEvents (r.output es) = es := by
    rw [State.newEvents, State.output_events, hw.events, List.drop_left]
  rw [hnew]
  refine ⟨congrArg (· + answeredIn es) hcount, congrArg (List.drop (answeredIn es)) htransport, ?_⟩
  cases hw with
  | nothing hi hr =>
    rw [hr]
    cases i with
    | cfg | dest | convert => rfl
    | openSocket => exact List.nil_prefix
    | send | frame => exact .inl rfl
    | close => exact absurd rfl hi
  | sends hi _ hr =>
    obtain ⟨samples, rfl⟩ | ⟨raw, rfl⟩ := hi
    · exact .inr ⟨_, hr⟩
    · exact .inr ⟨_, hr⟩
  | cfg _ hr => exact hr
  | dest _ hr => exact hr
  | createFails _ hr => exact hr ▸ ⟨_, rfl⟩
  | created _ _ hr => exact hr ▸ List.prefix_rfl
  | close hr => exact hr

/-- Settles O39: by giving the draw of each answer; a count within the payload is read as it stands. -/
theorem drawsStandForTheAllowedAnswers : Obligations.DrawsStandForTheAllowedAnswers := by
  refine ⟨fun a => ?_, fun a => ?_, fun len a => ⟨?_, fun ha => ?_⟩⟩
  · cases a with
    | createOk h => exact ⟨⟨true, h, 0, 0⟩, rfl⟩
    | createErr code => exact ⟨⟨false, ⟨0⟩, code, 0⟩, rfl⟩
  · cases a with
    | ok => exact ⟨⟨true, ⟨0⟩, 0, 0⟩, rfl⟩
    | err code => exact ⟨⟨false, ⟨0⟩, code, 0⟩, rfl⟩
  · rintro ⟨⟨accept, h, code, count⟩, rfl⟩ n hn
    cases accept with
    | true => cases hn; exact Nat.min_le_right count len
    | false => cases hn
  · cases a with
    | sent n => exact ⟨⟨true, ⟨0⟩, 0, n⟩, congrArg SendAnswer.sent (Nat.min_eq_left (ha n rfl))⟩
    | err code => exact ⟨⟨false, ⟨0⟩, code, 0⟩, rfl⟩

end Sys2Proof.Machine

/-! PROOFS. 43_pipeline.md: FRAME as the converter's half and then the forwarder's (rule R160), its one datagram for each
buffer, and that nothing is carried over from one buffer to the next (rule R161). -/

namespace Sys2Proof.Machine

/-! ## FRAME in terms of CONVERT and SEND -/

section
variable {raw : List Byte} {s : State}

/-- A buffer that fails one of the two checks is rejected by FRAME as by CONVERT (43_pipeline.md rule R160). -/
theorem exec_frame_of_rejected (h : s.cfg.cvalid = false ∨ raw.length % frameSize s.cfg.fmt ≠ 0) :
    exec (.frame raw) s = exec (.convert raw) s := by
  rw [exec_frame, exec_convert, convertThen_spec, convertThen_spec]
  by_cases hv : s.cfg.cvalid = false
  · rw [if_pos hv, if_pos hv]
  · have hl := h.resolve_left hv
    rw [if_neg hv, if_pos hl, if_neg hv, if_pos hl]

/-- On a buffer that passes the checks FRAME is SEND of the mono sequence, once the `Repeat` log events are out
(43_pipeline.md rule R160). -/
theorem exec_frame_of_checked (hv : s.cfg.cvalid = true) (hl : raw.length % frameSize s.cfg.fmt = 0) :
    exec (.frame raw) s = exec (.send (monoOf s.ord s.cfg raw)) (s.emit (s.repeatsOf raw)) := by
  rw [exec_frame, convertThen_spec, if_neg (by simp [hv]), if_neg (not_not.mpr hl)]
  rfl

end

/-- Settles O22: the rejections are CONVERT's, and what follows the `Repeat` log events is SEND's, as O21 and O19 have
them. -/
theorem frameConvertsThenSends : Obligations.FrameConvertsThenSends := by
  intro raw s
  obtain ⟨-, hnotConfigured, hmalformed, -⟩ := convertDeliversMonoAndDiagnostics raw s
  refine ⟨rfl, fun hv => ?_, fun hv hl => ?_, fun rs hv hl hrs => ?_⟩
  · rw [exec_frame_of_rejected (.inl hv), hnotConfigured hv]
  · rw [exec_frame_of_rejected (.inr hl), hmalformed hv hl]
  · obtain ⟨-, hrejected, hopened⟩ :=
      sendMakesOneRequest (monoOf s.ord s.cfg raw) (s.emit (repeatLogs (reported rs)))
    have hlogs : s.repeatsOf raw = repeatLogs (reported rs) := congrArg repeatLogs hrs.scanFrom_eq
    rw [exec_frame_of_checked hv hl, hlogs]
    refine ⟨by rw [serialize_length, monoOf_length], hrejected, fun code hf => ?_, fun n hf => ?_, fun hf => ?_⟩ <;>
      obtain ⟨herror, hpartial, hsent⟩ := hopened hf
    · exact herror code
    · exact hpartial n
    · exact hsent

/-! ## One buffer, at most one datagram -/

/-- Settles O35: of the four ends of FRAME only the one in `Open` holds a request. -/
theorem oneBufferMakesAtMostOneDatagram : Obligations.OneBufferMakesAtMostOneDatagram := by
  intro raw s
  obtain ⟨t, e⟩ := exec_completes (.frame raw) s
  refine ⟨t, e, ?_⟩
  cases ends_of_exec e with
  | frameNotConfigured hv => simp [State.newEvents, hv]
  | frameMalformed _ hl => simp [State.newEvents, hl]
  | frameRejected _ _ hf => simp [State.newEvents, hf]
  | frameAsked hv hl hf => simp [State.newEvents, hv, hl, hf]

/-! ## Nothing is carried over -/

/-- What a later output holds beyond an earlier one is what was output in between. -/
@[simp] theorem State.newEvents_output (s : State) (es : List Event) : s.newEvents (s.output es) = es := List.drop_left

/-- With the registers and draws of `s` the operation has one output, whatever events came before, and writes nothing. -/
def State.OutputsAfterAnyPast (s : State) (op : State → Host.Outcome State Fault Refusal) : Prop :=
  ∃ es, ∀ past, op { s with events := past } = .next ({ s with events := past }.output es)

/-- The events of the forwarder's `send` (42_forwarder.md rule R134). -/
def State.sendEvents (samples : List Int) (s : State) : List Event :=
  let p := serialize s.ord samples
  if s.fstate = .opened then
    .request (.sendTo s.handle s.dest p) :: errorEvents (sendStatus p.length (sendAnswer s.nextDraw p.length))
  else errorEvents .invalidState

/-- The forwarder's `send` is its output: it changes no register. -/
theorem sendSamples_eq_output (samples : List Int) (s : State) :
    sendSamples samples s = s.output (s.sendEvents samples) := by
  by_cases hf : s.fstate = .opened
  · rw [sendSamples_of_opened hf, State.asked_eq_output rfl, State.raise_output, State.sendEvents, if_pos hf]
    rfl
  · rw [sendSamples_of_not_opened hf, State.raise_eq_output, State.sendEvents, if_neg hf]

/-- The converter half does not read the past events if its continuation does not: the transient registers of the scan
start afresh with each buffer (41_converter.md rule R106). -/
theorem convertThen_outputsAfterAnyPast {k : List Int → State → State} {s : State}
    (hk : ∀ mono, s.OutputsAfterAnyPast fun r => .next (k mono r)) (raw : List Byte) :
    s.OutputsAfterAnyPast (convertThen raw k) := by
  by_cases hv : s.cfg.cvalid = false
  · refine ⟨errorEvents .notConfigured, fun past => ?_⟩
    rw [convertThen_spec, if_pos hv, State.raise_eq_output]
  · by_cases hl : raw.length % frameSize s.cfg.fmt = 0
    · obtain ⟨es, hes⟩ := hk (monoOf s.ord s.cfg raw)
      refine ⟨s.repeatsOf raw ++ es, fun past => ?_⟩
      rw [convertThen_spec, if_neg hv, if_neg (not_not.mpr hl), ← State.output_output,
        ← State.emit_eq_output (requestsIn_repeatLogs _)]
      exact hes (past ++ s.repeatsOf raw)
    · refine ⟨errorEvents (.malformedBufferError (frameSize s.cfg.fmt) raw.length), fun past => ?_⟩
      rw [convertThen_spec, if_neg hv, if_pos hl, State.raise_eq_output]

/-- A FRAME or CONVERT changes no register, and its output does not depend on the past events (43_pipeline.md rule
R161). -/
theorem exec_outputsAfterAnyPast {i : Instr} (hi : (∃ raw, i = .frame raw) ∨ ∃ raw, i = .convert raw) (s : State) :
    s.OutputsAfterAnyPast (exec i) := by
  obtain ⟨raw, rfl⟩ | ⟨raw, rfl⟩ := hi
  · exact convertThen_outputsAfterAnyPast
      (fun mono => ⟨s.sendEvents mono, fun _ => congrArg Host.Outcome.next (sendSamples_eq_output mono _)⟩) raw
  · exact convertThen_outputsAfterAnyPast (k := fun mono s => (s.emit [.mono mono]).finish)
      (fun mono => ⟨[.mono mono, .rsp .ok], fun _ => congrArg Host.Outcome.next
        ((State.emit_emit ..).trans (State.emit_eq_output rfl _))⟩) raw

/-- Settles O36: after `a` the registers are those of `s`, so the two runs of `b` differ in the past events alone. -/
theorem nothingIsCarriedFromBufferToBuffer : Obligations.NothingIsCarriedFromBufferToBuffer := by
  intro a b s t u ha hb hat hbu
  obtain ⟨es, hes⟩ := exec_outputsAfterAnyPast ha s
  cases hat.symm.trans (hes s.events)
  obtain ⟨fs, hfs⟩ := exec_outputsAfterAnyPast hb (s.output es)
  cases hbu.symm.trans (hfs (s.events ++ es))
  exact ⟨_, hfs s.events, (State.newEvents_output _ fs).trans (State.newEvents_output _ fs).symm⟩

end Sys2Proof.Machine

/-! PROOFS. 60_exceptions.md: the one response that ends every command (rules R170, R176), what the commands that are
rejected leave unchanged (rules R175, R179), and the idle step (rule R187). -/

namespace Sys2Proof.Machine

/-! ## Events that are no response -/

@[simp] theorem Event.isRsp_log (v : Severity) (k : LogKind) : (Event.log v k).isRsp = false := rfl
@[simp] theorem Event.isRsp_mono (xs : List Int) : (Event.mono xs).isRsp = false := rfl
@[simp] theorem Event.isRsp_request (r : TransportRequest) : (Event.request r).isRsp = false := rfl

/-- `Repeat` log events are no responses. -/
theorem isRsp_of_mem_repeatLogs {ds : List RepeatDiagnostic} : ∀ e ∈ repeatLogs ds, e.isRsp = false := by
  simp [repeatLogs]

/-- OPEN's three requests are no responses, and neither is what its reuse step logs. -/
theorem isRsp_of_mem_openEvents (h : Handle) {warning : List Event} (hw : IsReuseWarning warning) :
    ∀ e ∈ openEvents h warning, e.isRsp = false := by
  obtain rfl | ⟨code, rfl⟩ := hw <;> simp [openEvents]

/-- The `Release` of a held socket is no response. -/
theorem isRsp_of_mem_releaseEvents (s : State) : ∀ e ∈ s.releaseEvents, e.isRsp = false := by
  unfold State.releaseEvents
  split <;> simp

/-- Releasing what is held emits the `Release` request alone. -/
theorem releaseHeld_events (s : State) : (releaseHeld s).events = s.events ++ s.releaseEvents := by
  rw [releaseHeld_eq_output]; rfl

/-- OPEN's three requests emit themselves and what the reuse step logs. -/
theorem State.openAsked_events (h : Handle) {warning : List Event} (hw : IsReuseWarning warning) (s : State) :
    (s.openAsked h warning).events = s.events ++ openEvents h warning := by
  rw [State.openAsked_eq_output h hw]; rfl

/-! ## The response of a command -/

/-- The statuses of the commands that get past their checks; every other status is precise (60_exceptions.md rule
R179). -/
def Status.mayFollowEffect : Status → Bool
  | .ok | .socketError _ _ | .sendError _ => true
  | _ => false

/-- The status of an answer to `SendTo` comes after the request. -/
theorem Status.mayFollowEffect_of_send {x : Status} (h : x = .ok ∨ ∃ k, x = .sendError k) : x.mayFollowEffect = true := by
  obtain rfl | ⟨k, rfl⟩ := h <;> rfl

/-- `Responds s i body x t`: in `s` the command `i` emits `body` and then raises the status `x`, which leaves `t`. It does
so at once, or as FRAME's send half rejects what the converter half has logged, or after what it does by its rule. -/
inductive Responds (s : State) (i : Instr) : List Event → Status → State → Prop
  | atOnce {x} : Responds s i [] x (s.raise x)
  | afterRepeats {raw} : i = .frame raw →
      Responds s i (s.repeatsOf raw) .invalidState ((s.emit (s.repeatsOf raw)).raise .invalidState)
  | acting {r : State} {body x} : r.events = s.events ++ body → (∀ e ∈ body, e.isRsp = false) →
      x.mayFollowEffect = true → Responds s i body x (r.raise x)

section
variable {s t : State} {i : Instr} {body : List Event} {x : Status}

theorem Responds.events (h : Responds s i body x t) : t.events = s.events ++ body ++ errorEvents x := by
  cases h with
  | atOnce => rw [List.append_nil]; rfl
  | afterRepeats => rfl
  | acting hr => rw [State.raise_events, hr]

theorem Responds.isRsp_of_mem (h : Responds s i body x t) : ∀ e ∈ body, e.isRsp = false := by
  cases h with
  | atOnce => exact List.forall_mem_nil _
  | afterRepeats => exact isRsp_of_mem_repeatLogs
  | acting _ hb => exact hb

/-- Every end of a command is a response. -/
theorem Ends.responds (h : Ends s i t) : ∃ body x, Responds s i body x t := by
  cases h with
  | cfgLocked | destRejected | destFails | openRejected | sendRejected | convertNotConfigured | convertMalformed
  | frameNotConfigured | frameMalformed => exact ⟨_, _, .atOnce⟩
  | frameRejected => exact ⟨_, _, .afterRepeats rfl⟩
  | cfgAccepted | destStored =>
    exact ⟨[], .ok, .acting (List.append_nil _).symm (List.forall_mem_nil _) rfl⟩
  | openCreateFails => exact ⟨_, _, .acting rfl (by simp) rfl⟩
  | openNonBlockFails _ _ hw => exact ⟨_, _, .acting (State.openAsked_events _ hw s) (isRsp_of_mem_openEvents _ hw) rfl⟩
  | openSucceeds _ _ hw => exact ⟨_, .ok, .acting (State.openAsked_events _ hw s) (isRsp_of_mem_openEvents _ hw) rfl⟩
  | sendAsked _ hx => exact ⟨_, _, .acting rfl (by simp) (Status.mayFollowEffect_of_send hx)⟩
  | converted =>
    exact ⟨_, .ok, .acting (List.append_assoc ..) (List.forall_mem_append.mpr ⟨isRsp_of_mem_repeatLogs, by simp⟩) rfl⟩
  | frameAsked _ _ _ hx =>
    exact ⟨_, _, .acting (List.append_assoc ..) (List.forall_mem_append.mpr ⟨isRsp_of_mem_repeatLogs, by simp⟩)
      (Status.mayFollowEffect_of_send hx)⟩
  | closeFailed | closed =>
    exact ⟨_, .ok, .acting (releaseHeld_events s) (isRsp_of_mem_releaseEvents s) rfl⟩

/-- What a command adds to the output determines its response and all that comes before. -/
theorem Responds.unique {es : List Event} {y : Status} (h : Responds s i body x t)
    (he : t.events = s.events ++ es ++ [.rsp y]) : es = body ++ (x.logKind.map logOf).toList ∧ y = x := by
  have hcancel : es ++ [.rsp y] = (body ++ (x.logKind.map logOf).toList) ++ [.rsp x] := by
    simpa [errorEvents] using he.symm.trans h.events
  obtain ⟨hes, hy⟩ := List.append_inj' hcancel rfl
  exact ⟨hes, by cases hy; rfl⟩

end

/-! ## What every command and every rejection does -/

/-- Settles O27: a command completes, and each of its ends is a response. -/
theorem everyCommandEndsWithOneResponse : Obligations.EveryCommandEndsWithOneResponse := by
  intro i s
  obtain ⟨t, e⟩ := exec_completes i s
  obtain ⟨body, x, h⟩ := (ends_of_exec e).responds
  exact ⟨t, body, x, e, by rw [h.events, errorEvents, List.append_assoc _ _ [_]], h.isRsp_of_mem⟩

/-- Settles O29: a command that raises at once emits the log event of its status alone, FRAME's late rejection its
`Repeat` log events, and a command that acted reports none of these statuses. -/
theorem rejectedCommandsChangeNothing : Obligations.RejectedCommandsChangeNothing := by
  intro i s t es x e he hx
  obtain ⟨body, y, h⟩ := (ends_of_exec e).responds
  obtain ⟨rfl, rfl⟩ := h.unique he
  cases h with
  | atOnce =>
    refine ⟨rfl, ?address, ?malformed, ?silent, ?invalid, ?noRepeat⟩
    case address => rintro rfl; rfl
    case malformed => rintro m n rfl; rfl
    case silent => rintro (rfl | rfl) <;> rfl
    case invalid => rintro rfl -; rfl
    case noRepeat => rintro rfl; exact ⟨[], rfl⟩
  | @afterRepeats raw hi =>
    exact ⟨rfl, nofun, nofun, nofun, fun _ hn => absurd hi (hn raw), fun _ => ⟨_, List.append_nil _⟩⟩
  | acting _ _ hact => obtain ⟨m, n, rfl⟩ | rfl | rfl | rfl | rfl := hx <;> cases hact

/-! ## The idle step -/

/-- With nothing delivered a step is idle (60_exceptions.md rule R187; log entry 10). -/
theorem step_of_idle {s : State} (h : s.inputs = []) : step s = .next s := by
  have hf : s.fetch = .idle := by simp only [State.fetch, h]
  rw [step, hf]

/-- Settles O24: an idle step is the case of a step with no input waiting. -/
theorem idleStepKeepsTheState : Obligations.IdleStepKeepsTheState := fun _ => step_of_idle

end Sys2Proof.Machine

/-! PROOFS. 70_reset_and_hazards.md: what reset restores (rules R200, R201), and the set-up order after which a FRAME
converts and sends (rule R202). -/

namespace Sys2Proof.Machine

/-! ## Reset -/

/-- Settles O25: the step is `resetBlock` on the state with the input taken; it writes registers alone. -/
theorem resetInputRestoresTheBlock : Obligations.ResetInputRestoresTheBlock := by
  intro s strap rest hin
  refine ⟨_, step_of_reset hin, ?_⟩
  rw [State.takeInput_of_inputs hin]
  exact ⟨rfl, rfl, rfl, rfl, rfl, rfl, rfl, rfl, rfl⟩

/-! ## The commands of the set-up, each where it succeeds -/

section
variable {s : State}

/-- CFG while `CVALID = 0` writes `CFG` (40_setup.md rule R90). -/
theorem exec_cfg_of_not_cvalid (hv : s.cfg.cvalid = false) (fmt : SampleFormat) (out mon : Channel) :
    exec (.cfg fmt out mon) s =
      .next ((s.writeCfg { fmt := fmt, out := out, mon := mon, cvalid := true }).output [.rsp .ok]) := by
  obtain ⟨-, haccepted, -⟩ := cfgIsAcceptedOnce fmt out mon s
  exact haccepted hv

/-- DEST in `Unconfigured`, with a text that parses, stores the destination (42_forwarder.md rule R131). -/
theorem exec_dest_of_parseAddr {text : List Byte} {a : Resolved} (hf : s.fstate = .unconfigured)
    (hp : s.parseAddr text = some a) (port : BitVec 16) :
    exec (.dest text port) s =
      .next (((s.writeDest { family := a.family, addr := a.addr, port := port }).writeFState .configured).output
        [.rsp .ok]) := by
  obtain ⟨-, -, -, hstored⟩ := destStoresTheResolvedDestination text port s
  exact hstored a hf hp

/-- OPEN in `Configured`, with its three requests accepted, holds the socket (42_forwarder.md rule R132). -/
theorem exec_openSocket_of_accepted {h : Handle} (hf : s.fstate = .configured)
    (hcreate : createAnswer (s.upcoming 0) = .createOk h) (hreuse : optionAnswer (s.upcoming 1) = .ok)
    (hnonBlock : optionAnswer (s.upcoming 2) = .ok) :
    exec .openSocket s = .next (((s.holdSocket h).writeFState .opened).output (openEvents h [] ++ [.rsp .ok])) := by
  obtain ⟨-, -, -, hcreated⟩ := openCreatesTheSocket s
  obtain ⟨-, hopened⟩ := hcreated h [] hf hcreate (.inl ⟨hreuse, rfl⟩)
  have hdraws : answeredIn (openEvents h [] ++ [.rsp .ok]) = 3 := rfl
  rw [hopened hnonBlock, State.output, hdraws]
  simp [openEvents, State.holdSocket, State.writeFState]

/-- FRAME of whole frames is its output: the `Repeat` log events, then what the forwarder's `send` emits
(43_pipeline.md rule R160). -/
theorem exec_frame_eq_output {raw : List Byte} (hv : s.cfg.cvalid = true) (hl : raw.length % frameSize s.cfg.fmt = 0) :
    exec (.frame raw) s = .next (s.output (s.repeatsOf raw ++ s.sendEvents (monoOf s.ord s.cfg raw))) := by
  rw [exec_frame_of_checked hv hl, ← State.output_output, ← State.emit_eq_output (requestsIn_repeatLogs _)]
  exact congrArg Host.Outcome.next (sendSamples_eq_output ..)

/-- In `Open` the forwarder's `send` makes one request, whatever it is answered (42_forwarder.md rule R134). -/
theorem requestsIn_sendEvents_of_opened (hf : s.fstate = .opened) (samples : List Int) :
    requestsIn (s.sendEvents samples) = [.sendTo s.handle s.dest (serialize s.ord samples)] := by
  simp [State.sendEvents, hf]

/-- A run whose next input is the packet of a command goes on from the state in which that command ends. -/
theorem run_succ_of_encode {u : State} {i : Instr} {rest : List HostInput} (hi : i.wellFormed = true)
    (hin : s.inputs = .packet (encode i) :: rest) (he : exec i { s with inputs := rest } = .next u) (n : Nat) :
    core.run (n + 1) s = core.run n u := by
  obtain ⟨hstep, -⟩ := stepRunsTheDecodedCommand
  exact run_succ_of_step core ((hstep s _ rest i hin (decodeGivesBackEncodedCommand i hi)).trans he) n

end

/-! ## The set-up order -/

/-- The registers after the set-up of 70_reset_and_hazards.md rule R202, with what is left of the input. -/
def State.setUp (c : CfgReg) (d : Destination) (h : Handle) (rest : List HostInput) (s : State) : State :=
  { s with cfg := c, dest := d, fstate := .opened, sock := true, handle := h, inputs := rest }

/-- The events of the set-up. -/
def setUpEvents (h : Handle) : List Event := [.rsp .ok, .rsp .ok] ++ (openEvents h [] ++ [.rsp .ok])

/-- The set-up makes the requests of its OPEN and no others. -/
theorem requestsIn_setUpEvents (h : Handle) : requestsIn (setUpEvents h) = [.create, .setReuse h, .setNonBlock h] := by
  simp [setUpEvents, requestsIn_openEvents h (.inl rfl)]

section
variable {s : State} {fmt : SampleFormat} {out mon : Channel} {text : List Byte} {port : BitVec 16} {a : Resolved}
  {h : Handle} {rest : List HostInput}

/-- The set-up in three steps. CFG and DEST take no draw, so OPEN meets the first three answers. -/
theorem run_setUp (hv : s.cfg.cvalid = false) (hf : s.fstate = .unconfigured) (hp : s.parseAddr text = some a)
    (hcreate : createAnswer (s.upcoming 0) = .createOk h) (hreuse : optionAnswer (s.upcoming 1) = .ok)
    (hnonBlock : optionAnswer (s.upcoming 2) = .ok)
    (hin : s.inputs = .packet (encode (.cfg fmt out mon)) :: .packet (encode (.dest text port)) ::
      .packet (encode .openSocket) :: rest) (n : Nat) :
    core.run (n + 3) s = core.run n ((s.setUp { fmt := fmt, out := out, mon := mon, cvalid := true }
      { family := a.family, addr := a.addr, port := port } h rest).output (setUpEvents h)) := by
  refine (run_succ_of_encode rfl hin (exec_cfg_of_not_cvalid ?cfg fmt out mon) (n + 2)).trans <|
    (run_succ_of_encode rfl rfl (exec_dest_of_parseAddr (a := a) ?unconfigured ?parsed port) (n + 1)).trans <|
    (run_succ_of_encode rfl rfl (exec_openSocket_of_accepted (h := h) rfl ?create ?reuse ?nonBlock) n).trans ?run
  case cfg => exact hv
  case unconfigured => exact hf
  case parsed => exact hp
  case create => exact hcreate
  case reuse => exact hreuse
  case nonBlock => exact hnonBlock
  case run => simp [State.output, State.setUp, setUpEvents, openEvents, answeredIn]

end

/-- Settles O41: after the set-up FRAME meets a valid `CFG` and an open forwarder; its logs and responses are no
requests. -/
theorem setUpMakesFramesSend : Obligations.SetUpMakesFramesSend := by
  intro s fmt out mon text port a h raw hv hf hp hcreate hreuse hnonBlock hl hin
  refine ⟨_, (run_setUp hv hf hp hcreate hreuse hnonBlock hin 1).trans
    (run_succ_of_encode rfl rfl (exec_frame_eq_output rfl ?frames) 0), rfl, rfl, ?requests⟩
  case frames => exact hl
  case requests => simp [State.newEvents, State.setUp, requestsIn_setUpEvents, requestsIn_sendEvents_of_opened]

end Sys2Proof.Machine
